-- ==== Sys2Proof/Word.lean ====
section
/-! DEFINITION. The bit vectors the spec treats as bits: bytes, 32-bit port and register words, and the 31-bit
LFSR cells (00_scope.md R8; 10_state.md R21, R23). Every value is unsigned. -/

namespace Sys2Proof

/-- A byte of the key, the IV or a serialized keystream word. -/
abbrev Byte := BitVec 8

/-- A 32-bit word: a port transfer, r1, r2, x[j], w or z (00_scope.md R6, `WORD_BITS`). -/
abbrev Word := BitVec 32

/-- One LFSR cell. R21 stores 31 bits of value in a 32-bit word whose bit 31 is always 0; that bit carries nothing, and
R121 and D25 give no meaning to a cell that has it set, so a cell IS its 31 bits (log entry 2). -/
abbrev Cell := BitVec 31

/-- The LFSR, `s[0]` (oldest) to `s[15]` (newest) (10_state.md R21). -/
abbrev Cells := Vector Cell 16

/-- Sixteen key or IV bytes, `key[0..15]` (30_encoding.md R73). -/
abbrev Bytes16 := Vector Byte 16

/-- The BR output buffer `x[0..3]` (10_state.md R24). -/
abbrev XBuf := Vector Word 4

end Sys2Proof
end

