-- ==== Sys2Proof/Syntax.lean ====
section
/-! DEFINITION. The command set: one constructor per row of spec/opcode_table.json (30_encoding.md R72). An illegal header is
no row of the table and no constructor here; `Sys2Proof.Decoded.illegal` is what the decoder answers for it (log entry 16). -/

namespace Sys2Proof

/-- A whole command frame, its operands assembled. Every term of this type is a legal frame: R73's exactly sixteen key and
sixteen IV bytes are in the type. -/
inductive Instr where
  /-- LOAD key, iv (44_host_commands.md R181). -/
  | load (key iv : Bytes16)
  /-- GEN (44_host_commands.md R182). -/
  | gen
  /-- STATUS (44_host_commands.md R183). -/
  | status
deriving DecidableEq, Repr

end Sys2Proof
end

