-- ==== Sys2Proof/WellFormed.lean ====
section
/-! DEFINITION. The checks the spec puts on raw input: the frame's form (30_encoding.md R71, R72, R76, R77) and the lengths of
the key and IV buffers at the API boundary (30_encoding.md R73). -/

namespace Sys2Proof

/-- A header's opcode field (30_encoding.md R71). -/
def opcField (h : Word) : BitVec 8 := h.extractLsb' 0 8

/-- A header's reserved field, which must be 0 (30_encoding.md R71). -/
def rsvField (h : Word) : BitVec 24 := h.extractLsb' 8 24

/-- The payload words a frame with this opcode takes; an illegal header takes none (30_encoding.md R72, R76). -/
def payloadWords (opc : BitVec 8) : Nat := if opc = 0x01 then 8 else 0

/-- The opcode is assigned (30_encoding.md R72). -/
def opcLegal (h : Word) : Bool := opcField h = 0x01 || opcField h = 0x02 || opcField h = 0x03

/-- The reserved field is 0 (30_encoding.md R71). -/
def rsvLegal (h : Word) : Bool := rsvField h = 0

/-- These words are exactly one legal command frame: a legal header and all the payload words of its opcode. -/
def frameWellFormed : List Word → Bool
  | [] => false
  | h :: payload => opcLegal h && rsvLegal h && payload.length == payloadWords (opcField h)

/-- Both buffers have the one legal length, 16 bytes (30_encoding.md R73). -/
def buffersWellFormed (key iv : List Byte) : Bool := key.length == 16 && iv.length == 16

/-- The API boundary of R73: a LOAD from two byte buffers, refused (`none`) unless each holds exactly 16 bytes. -/
def mkLoad (key iv : List Byte) : Option Instr :=
  if h : key.length = 16 ∧ iv.length = 16 then
    some (.load ⟨key.toArray, by simpa using h.1⟩ ⟨iv.toArray, by simpa using h.2⟩)
  else none

end Sys2Proof
end

