-- ==== Sys2Proof/Decode.lean ====
section
/-! DEFINITION. Decoding command words (30_encoding.md R71..R73, R76, R77, R82) and the encoder written from the same rules. -/

namespace Sys2Proof

/-- What a header word says (30_encoding.md R82). -/
inductive Header where
  | load
  | gen
  | status
  | illegal
deriving DecidableEq, Repr

/-- R82: every 32-bit header decodes to exactly one of the four. -/
def decodeHeader (h : Word) : Header :=
  if h = 0x00000001 then .load
  else if h = 0x00000002 then .gen
  else if h = 0x00000003 then .status
  else .illegal

/-- What stands at the head of a word stream. -/
inductive Decoded where
  /-- A complete frame, and the words after it. -/
  | frame (i : Instr) (rest : List Word)
  /-- An illegal header, a frame of one word (R76), and the words after it. -/
  | illegal (header : Word) (rest : List Word)
  /-- A LOAD frame whose payload has not all arrived (R77). -/
  | incomplete
  /-- No word at all. -/
  | empty
deriving DecidableEq, Repr

/-- R73: `Pj = b[4j] ++ b[4j+1] ++ b[4j+2] ++ b[4j+3]`. -/
def packWord (b : Bytes16) (j : Fin 4) : Word :=
  b[4 * j.val]'(by omega) ++ b[4 * j.val + 1]'(by omega) ++ b[4 * j.val + 2]'(by omega) ++ b[4 * j.val + 3]'(by omega)

/-- R73's inverse: `b[i] = P(i / 4)[31 - 8*(i mod 4) : 24 - 8*(i mod 4)]`. -/
def unpackByte (p : Vector Word 4) (i : Fin 16) : Byte :=
  (p[i.val / 4]'(by omega)).extractLsb' (24 - 8 * (i.val % 4)) 8

/-- The sixteen bytes of four payload words (R73). -/
def unpackBytes (p : Vector Word 4) : Bytes16 := Vector.ofFn (unpackByte p)

/-- The command at the head of a word stream: total, each rejection under its own name. Payload words are never decoded, so
every payload is legal (R73, R76). -/
def decode (ws : List Word) : Decoded :=
  match ws with
  | [] => .empty
  | h :: rest =>
    match decodeHeader h with
    | .gen => .frame .gen rest
    | .status => .frame .status rest
    | .illegal => .illegal h rest
    | .load =>
      match rest with
      | p0 :: p1 :: p2 :: p3 :: p4 :: p5 :: p6 :: p7 :: rest' =>
        .frame (.load (unpackBytes #v[p0, p1, p2, p3]) (unpackBytes #v[p4, p5, p6, p7])) rest'
      | _ => .incomplete

/-- The four payload words of sixteen bytes (R73). -/
def packBytes (b : Bytes16) : List Word := [packWord b 0, packWord b 1, packWord b 2, packWord b 3]

/-- The words of a command frame, header first (30_encoding.md R71, R72, R73). -/
def encode : Instr → List Word
  | .load key iv => 0x00000001 :: (packBytes key ++ packBytes iv)
  | .gen => [0x00000002]
  | .status => [0x00000003]

/-- One frame of a whole stream: a command, or an illegal header word. -/
inductive Frame where
  | command (i : Instr)
  | illegal (header : Word)
deriving DecidableEq, Repr

/-- The words of one frame; an illegal header is a frame of one word (30_encoding.md R76). -/
def encodeFrame : Frame → List Word
  | .command i => encode i
  | .illegal header => [header]

/-- Why a whole-stream decoder refuses its input. -/
inductive StreamError where
  /-- The stream ends inside a LOAD frame (30_encoding.md R77, reason `Truncated`). -/
  | truncated
deriving DecidableEq, Repr

/-- Cut a stream into at most `fuel` frames. -/
def decodeStreamFrom : Nat → List Word → Except StreamError (List Frame)
  | 0, _ => .ok []
  | fuel + 1, ws =>
    match decode ws with
    | .empty => .ok []
    | .incomplete => .error .truncated
    | .illegal h rest => (decodeStreamFrom fuel rest).map (Frame.illegal h :: ·)
    | .frame i rest => (decodeStreamFrom fuel rest).map (Frame.command i :: ·)

/-- R77: cut a whole word stream into frames, refusing one that ends inside a LOAD frame (log entry 15). Every frame takes at least one
word, so the stream's length bounds their number. -/
def decodeStream (ws : List Word) : Except StreamError (List Frame) := decodeStreamFrom ws.length ws

/-- Word `k` of an instruction whose bits are `w`, numbered as the opcode table numbers them: bit 0 is the least significant
bit of the first word, and bits from `nbits` up are 0. -/
def tableWord (nbits w k : Nat) : Word := BitVec.ofNat 32 ((w % 2 ^ nbits) >>> (32 * k))

/-- The words the port carries for that instruction: nine if the header is LOAD's, else the header alone (R72). -/
def tableWords (nbits w : Nat) : List Word :=
  if tableWord nbits w 0 = 0x00000001 then (List.range 9).map (tableWord nbits w) else [tableWord nbits w 0]

/-- What `decode` reads from the instruction whose bits are `w` (none where it rejects the words). -/
def decodeTableWord (nbits w : Nat) : Option Instr :=
  match decode (tableWords nbits w) with
  | .frame i _ => some i
  | .illegal _ _ | .incomplete | .empty => none

end Sys2Proof
end

