-- ==== Sys2Proof/Machine/BitReconstruction.lean ====
section
/-! DEFINITION. BR, the bit reconstruction (41_bit_reconstruction.md R120..R122). -/

namespace Sys2Proof.Machine

/-- A cell's high half, bits 30..15 (R120). -/
def highHalf (c : Cell) : BitVec 16 := c.extractLsb' 15 16

/-- A cell's low half, bits 15..0 (R120). -/
def lowHalf (c : Cell) : BitVec 16 := c.extractLsb' 0 16

/-- R120 BR: the four words, each a high part and a low part of two cells. -/
def br (s : Cells) : XBuf :=
  #v[highHalf s[15] ++ lowHalf s[14],
     lowHalf s[11] ++ highHalf s[9],
     lowHalf s[7] ++ highHalf s[5],
     lowHalf s[2] ++ highHalf s[0]]

/-- The 32-bit storage word of a cell, bit 31 = 0 (10_state.md R21). -/
def cellStorage (c : Cell) : Word := c.setWidth 32

/-- R121: the source's shift-and-mask form of BR over the storage words. -/
def brShiftMask (s : Cells) : XBuf :=
  #v[((cellStorage s[15] &&& 0x7FFF8000) <<< 1) ||| (cellStorage s[14] &&& 0x0000FFFF),
     ((cellStorage s[11] &&& 0x0000FFFF) <<< 16) ||| (cellStorage s[9] >>> 15),
     ((cellStorage s[7] &&& 0x0000FFFF) <<< 16) ||| (cellStorage s[5] >>> 15),
     ((cellStorage s[2] &&& 0x0000FFFF) <<< 16) ||| (cellStorage s[0] >>> 15)]

end Sys2Proof.Machine
end

