-- ==== Sys2Proof/Config.lean ====
section
/-! DEFINITION. The parameters of 00_scope.md: R6's fixed ones, and R7's open ones as constants with no body, so that
whatever is proved holds for every value of them. -/

namespace Sys2Proof.Config

/-- The block's identity string (00_scope.md R1). -/
def identity : String := "ZUC-128/CORE"

/-- The field modulus 2^31 - 1 (00_scope.md R6, R9). -/
def P : Nat := 0x7FFFFFFF

/-- `INIT_ROUNDS` (00_scope.md R6). -/
def initRounds : Nat := 32

/-- `WARMUP_STEPS` (00_scope.md R6). -/
def warmupSteps : Nat := 1

/-- One less than `RESP_DEPTH`; open (00_scope.md R7; 92_eei_decisions.md D13; log entry 8). -/
opaque respDepthLessOne : Nat

/-- `RESP_DEPTH`, the capacity of the response FIFO: some natural number, at least 1 (00_scope.md R7). -/
def respDepth : Nat := respDepthLessOne + 1

/-- One less than `N_INSTANCES`; open (00_scope.md R7; 92_eei_decisions.md D18; log entry 9). -/
opaque instancesLessOne : Nat

/-- `N_INSTANCES`, how many CORE instances a platform holds: at least 1 (00_scope.md R7; 60_exceptions.md R221). -/
def instances : Nat := instancesLessOne + 1

/-- `T_ROUND`, the time of one controller round; open, and no rule uses it (00_scope.md R7; 70_reset_and_hazards.md R250). -/
opaque tRound : Nat

/-- `BASE_ADDR`, where a platform places the ports; open, and no rule uses it (00_scope.md R7; 20_memory.md R58). -/
opaque baseAddr : Nat

end Sys2Proof.Config
end

