-- ==== Sys2Proof/Machine/Lfsr.lean ====
section
/-! DEFINITION. The field of integers modulo P = 2^31 - 1 and the LFSR's two updates (40_lfsr.md R100..R108). -/

namespace Sys2Proof.Machine

open Sys2Proof.Config (P)

/-- R9: the residue of `c`, with the zero class stored as P. -/
def canonP (c : Nat) : Cell := BitVec.ofNat 31 (if c % P = 0 then P else c % P)

/-- R101 ADDMOD31: addition with end-around carry, `(c & 0x7FFFFFFF) + (c >> 31)` for the 32-bit sum `c`. -/
def addmod31 (a b : Cell) : Cell :=
  let c : Word := a.setWidth 32 + b.setWidth 32
  ((c &&& 0x7FFFFFFF) + (c >>> 31)).setWidth 31

/-- R102 MULMOD31: the 64-bit product modulo P. -/
def mulmod31 (a b : Cell) : Cell := ((a.setWidth 64 * b.setWidth 64) % BitVec.ofNat 64 P).setWidth 31

/-- R102 `rot31`: 31-bit left rotation. -/
def rot31 (a : Cell) (k : Nat) : Cell := (a <<< k) ||| (a >>> (31 - k))

/-- R103 LFSR_V: the feedback value, exact arithmetic before the one reduction. -/
def lfsrV (s : Cells) : Nat :=
  (2 ^ 15 * s[15].toNat + 2 ^ 17 * s[13].toNat + 2 ^ 21 * s[10].toNat + 2 ^ 20 * s[4].toNat
    + (2 ^ 8 + 1) * s[0].toNat) % P

/-- R106 SHIFT: `s[i] <- s[i+1]` for i in 0..14 and `s[15] <- s16`, all at once. -/
def lfsrShift (s : Cells) (s16 : Cell) : Cells :=
  Vector.ofFn fun i : Fin 16 => if h : i.val + 1 < 16 then s[i.val + 1] else s16

/-- R104 LFSR_INIT(u): the initialization-mode update. -/
def lfsrInit (s : Cells) (u : BitVec 31) : Cells := lfsrShift s (canonP (lfsrV s + u.toNat))

/-- R105 LFSR_WORK: the work-mode update. -/
def lfsrWork (s : Cells) : Cells := lfsrShift s (canonP (lfsrV s))

/-- The source's substitution "If the computed `s16 == 0`, substitute `s16 = 2^31 - 1`" (R104, R107). -/
def substZero (a : Cell) : Cell := if a = 0 then BitVec.ofNat 31 P else a

/-- R107: a chain of `addmod31` over terms, in any order and association. -/
inductive AddChain where
  | term (a : Cell)
  | add (l r : AddChain)
deriving DecidableEq, Repr

/-- The sum a chain computes (R107). -/
def chainValue : AddChain → Cell
  | .term a => a
  | .add l r => addmod31 (chainValue l) (chainValue r)

/-- The terms of a chain, left to right. -/
def chainTerms : AddChain → List Cell
  | .term a => [a]
  | .add l r => chainTerms l ++ chainTerms r

/-- R107: the chain of `addmod31` over the five terms in R103's order, however each was formed. -/
def feedbackChain (t15 t13 t10 t4 t0 : Cell) : Cell := addmod31 (addmod31 (addmod31 (addmod31 t15 t13) t10) t4) t0

/-- R107: `t` is the term `2^k * a`, formed by `mulmod31` or by `rot31`. -/
def IsShiftTerm (t a : Cell) (k : Nat) : Prop := t = mulmod31 a (BitVec.ofNat 31 (2 ^ k)) ∨ t = rot31 a k

/-- R107: `t` is the term `(2^8 + 1) * a`, formed by `mulmod31` at once, or as a shift term and `a` added. -/
def IsLastTerm (t a : Cell) : Prop :=
  t = mulmod31 a (BitVec.ofNat 31 (2 ^ 8 + 1)) ∨ ∃ t8, IsShiftTerm t8 a 8 ∧ t = addmod31 t8 a

end Sys2Proof.Machine
end

