-- ==== Sys2Proof/Machine/Rom.lean ====
section
/-! DEFINITION. The three constant tables and `RomRead` (20_memory.md R50..R54). A row of S0 or S1 is written as the spec prints
it: sixteen bytes, column 0 first. -/

namespace Sys2Proof.Machine

/-- R51: the sixteen D constants, 15 bits each. -/
def romDTable : List (BitVec 15) :=
  [0x44D7, 0x26BC, 0x626B, 0x135E, 0x5789, 0x35E2, 0x7135, 0x09AF] ++
  [0x4D78, 0x2F13, 0x6BC4, 0x1AF1, 0x5E26, 0x3C4D, 0x789A, 0x47AC]

/-- R52: the S0 table, row by row. -/
def romS0Rows : List (BitVec 128) :=
  [0x3E725B47CAE0003304D1549809B96DCB,
   0x7B1BF932AF9D6AA5B82DFC1D08530390,
   0x4D4E8499E4CED991DDB685488B296EAC,
   0xCDC1F81E734369C6B5BDFD396320D438,
   0x767DB2A7CFED57C5F32CBB142106559B,
   0xE3EF5E314F7F5AA40D8251495FBA581C,
   0x4A16D517A892241F8CFFD8AE2E01D3AD,
   0x3B4BDA46EBC9DE9A8F87D73A806F2FC8] ++
  [0xB1B437F70A2213287CCC3C89C7C39656,
   0x07BF7EF00B2B975235417961A64C10FE,
   0xBC2695888AB0A3FBC01894F2E1E5E95D,
   0xD0DC1166645CEC59427512F5749CAA23,
   0x0E86ABBE2A02E767E644A26CC2939FF1,
   0xF6FA36D250689E6271153DD640C4E20F,
   0x8E83776B25053F0C30EA70B7A1E8A965,
   0x8D271ADB81B3A0F4457A19DFEE783460]

/-- R53: the S1 table, row by row. -/
def romS1Rows : List (BitVec 128) :=
  [0x55C263713BC847869F3CDA5B29AAFD77,
   0x8CC5940CA61A1300E3A8167240F9F842,
   0x4426689681D9453E1076C6A78B3943E1,
   0x3AB5562AC06DB3052266BFDC0BFA6248,
   0xDD20110636C9C1CFF62752BB69F5D487,
   0x7F844CD29C57A4BC4F9ADFFED68D7AEB,
   0x2B53D85CA11417FB23D57D3067730809,
   0xEEB7703F61B2198E4EE54B938F5DDBA9] ++
  [0xADF1AE2ECB0DFCF42D466E1D97E8D1E9,
   0x4D37A5755E839EAB829DB91CE0CD4989,
   0x01B6BD5824A25F387899159050B895E4,
   0xD091C7CEED0FB46FA0CCF0024A79C3DE,
   0xA3EFEA51E66B18EC1B2C80F774E7FF21,
   0x5A6A541E41319235C433070ABA7E0E34,
   0x88B1987CF33D606C7BCAD31F32650428,
   0x64BE859B2F598AD7B025ACAF1203E2F2]

/-- `RomRead(D, i)` (R54). -/
def romD (a : Fin 16) : BitVec 15 := romDTable[a.val]'a.isLt

/-- The byte in column `a[3:0]` of row `a[7:4]` (R52). -/
def romByte (rows : List (BitVec 128)) (h : rows.length = 16) (a : Byte) : Byte :=
  (rows[(a.extractLsb' 4 4).toNat]'(h ▸ (a.extractLsb' 4 4).isLt)).extractLsb' (120 - 8 * (a.extractLsb' 0 4).toNat) 8

/-- `RomRead(S0, a)` (R52, R54). -/
def romS0 (a : Byte) : Byte := romByte romS0Rows rfl a

/-- `RomRead(S1, a)` (R53, R54). -/
def romS1 (a : Byte) : Byte := romByte romS1Rows rfl a

end Sys2Proof.Machine
end

