-- ==== Sys2Proof/Machine/NonlinearF.lean ====
section
/-! DEFINITION. The nonlinear function F and its layers (42_nonlinear_f.md R130..R135). -/

namespace Sys2Proof.Machine

/-- R130 ROTL32. -/
def rotl32 (v : Word) (k : Nat) : Word := (v <<< k) ||| (v >>> (32 - k))

/-- R131 L1, the first linear diffusion layer. -/
def l1 (v : Word) : Word := v ^^^ rotl32 v 2 ^^^ rotl32 v 10 ^^^ rotl32 v 18 ^^^ rotl32 v 24

/-- R132 L2, the second linear diffusion layer. -/
def l2 (v : Word) : Word := v ^^^ rotl32 v 8 ^^^ rotl32 v 14 ^^^ rotl32 v 22 ^^^ rotl32 v 30

/-- R133 SBOX: S0, S1, S0, S1 on the four bytes, most significant first. -/
def sbox (v : Word) : Word :=
  romS0 (v.extractLsb' 24 8) ++ romS1 (v.extractLsb' 16 8) ++ romS0 (v.extractLsb' 8 8) ++ romS1 (v.extractLsb' 0 8)

/-- What F gives: its result `w` and the new `r1`, `r2` (R134, R135). -/
structure FResult where
  w : Word
  r1 : Word
  r2 : Word
deriving DecidableEq, Repr

/-- R134 F. The concatenations are the ones the known-answer tests select (90_conflicts.md C3). -/
def nonlinearF (x : XBuf) (r1 r2 : Word) : FResult :=
  let w1 := r1 + x[1]
  let w2 := r2 ^^^ x[2]
  { w := (x[0] ^^^ r1) + r2
    r1 := sbox (l1 (w1.extractLsb' 0 16 ++ w2.extractLsb' 16 16))
    r2 := sbox (l2 (w2.extractLsb' 0 16 ++ w1.extractLsb' 16 16)) }

end Sys2Proof.Machine
end

