-- ==== Sys2Proof/Machine/Operands.lean ====
section
/-! DEFINITION. LOAD's operands as KEYLOAD uses them (43_controller.md R151; 30_encoding.md R79). No command has another operand. -/

namespace Sys2Proof.Machine

/-- R151: cell i is `key[i] ++ D[i][14:0] ++ iv[i]`, 8 + 15 + 8 = 31 bits. -/
def keyCell (key iv : Bytes16) (i : Fin 16) : Cell := key[i] ++ romD i ++ iv[i]

/-- The sixteen loaded cells (R151). -/
def keyCells (key iv : Bytes16) : Cells := Vector.ofFn (keyCell key iv)

end Sys2Proof.Machine
end

