-- ==== Sys2Proof/Machine/State.lean ====
section
/-! DEFINITION. The state of one CORE instance (10_state.md R20..R30), with the two ports and the agents' pending moves beside it,
and the reasons a step can stop. -/

namespace Sys2Proof.Machine

/-- `ctrl.phase` (10_state.md R26). -/
inductive Phase where
  /-- No key loaded since reset. -/
  | uninit
  /-- Initialization rounds in progress. -/
  | init
  /-- Keystream words may be produced. -/
  | ready
  /-- Sticky error state. -/
  | fault
deriving DecidableEq, Repr

/-- `ctrl.cause` (60_exceptions.md R210). Codes 3..15 are never raised, so they are no constructors. -/
inductive Cause where
  | none
  | illegalCommand
  | notReady
deriving DecidableEq, Repr

/-- One move of one agent: the kinds of step of 92_eei_decisions.md D1, and the host's putting a word on the command port. -/
inductive Turn where
  /-- Host stream `host` puts one word on the command port (30_encoding.md R70). -/
  | send (host : Nat) (w : Word)
  /-- CORE takes a host acceptance step (44_host_commands.md R180). -/
  | accept
  /-- The controller takes its step (43_controller.md R155). -/
  | controller
  /-- The host pops the response FIFO (44_host_commands.md R186). -/
  | pop
  /-- The platform resets the instance (70_reset_and_hazards.md R240). -/
  | reset
deriving DecidableEq, Repr

/-- Everything the spec gives one CORE instance (R20), then the model's own fields for the ports and the schedule.
`Option.none` in the first four is the spec's own reset state "no value (unwritten)" (R34, R35; log entry 1). -/
structure State where
  /-- `s[0..15]` (R21). All sixteen are always written together (R23). -/
  cells : Option Cells
  /-- `r1` (R23). -/
  r1 : Option Word
  /-- `r2` (R23). -/
  r2 : Option Word
  /-- `x[0..3]` (R24). All four are always written together. -/
  x : Option XBuf
  /-- `ctrl.phase` (R26). -/
  phase : Phase
  /-- `ctrl.round` (R27). -/
  round : BitVec 6
  /-- `ctrl.cause` (R28). -/
  cause : Cause
  /-- `resp`, oldest word first (R29). -/
  resp : List Word
  /-- `pend`, the words of an incomplete frame (R30). -/
  pend : List Word
  /-- The words on the command port that CORE has not taken, first sent first (30_encoding.md R70; log entry 4). -/
  port : List Word
  /-- The words the response port has delivered to the host, first delivered first (44_host_commands.md R186; log entry 6). -/
  delivered : List Word
  /-- The host stream that drives the command port, once one has sent a word (60_exceptions.md R221; log entry 7). -/
  owner : Option Nat
  /-- The moves the agents make next, first one first (20_memory.md R60; log entry 3). -/
  sched : List Turn
deriving DecidableEq, Repr

/-- A stop because a rule reads what R35 says has no value. No state a run from reset reaches raises one. -/
inductive Fault where
  /-- Raised by a round (43_controller.md R152..R154) that reads unwritten cells (10_state.md R35). Safe. -/
  | unwrittenCells
  /-- Raised by a round that reads an unwritten `r1` (10_state.md R35). Safe. -/
  | unwrittenR1
  /-- Raised by a round that reads an unwritten `r2` (10_state.md R35). Safe. -/
  | unwrittenR2
deriving DecidableEq, Repr

/-- A stop in a state or configuration to which the spec says a model gives no meaning. -/
inductive Refusal where
  /-- Raised by an arm of `exec` whose instruction has no meaning yet. Safe. -/
  | notModelled (mnemonic : String)
  /-- Raised by a round whose cells hold a 0 (92_eei_decisions.md D25: unreachable, and a model refuses it; 93 U10; log
  entry 11). Safe. -/
  | illegalCell
  /-- Raised by a controller step in INIT with a round count above 32 (10_state.md R27; 43_controller.md R155 gives it no round;
  unreachable; log entry 13). Safe. -/
  | roundOutOfRange
  /-- Raised by a word from a second host stream (60_exceptions.md R221, 70_reset_and_hazards.md R245: a model refuses that
  configuration). Safe. -/
  | interleavedHosts
deriving DecidableEq, Repr

/-- The machine right after reset (10_state.md R34), nothing on its ports and no move planned. -/
def State.reset : State where
  cells := none
  r1 := none
  r2 := none
  x := none
  phase := .uninit
  round := 0
  cause := .none
  resp := []
  pend := []
  port := []
  delivered := []
  owner := none
  sched := []

end Sys2Proof.Machine
end

