-- ==== Sys2Proof/Machine/Ops.lean ====
section
/-! DEFINITION. The named operations every meaning is written with: the ports, the response FIFO, reading the datapath
registers, and fault entry. -/

namespace Sys2Proof.Machine

/-- The outcome of one step of this machine. -/
abbrev StepOutcome := Host.Outcome State Fault Refusal

/-- The words of the command stream CORE has before it: the frame assembler's, then the port's (10_state.md R30). -/
def frameWords (s : State) : List Word := s.pend ++ s.port

/-- Remove an accepted frame of `n` words from the command port (44_host_commands.md R180). -/
def retire (n : Nat) (s : State) : State := { s with pend := [], port := (frameWords s).drop n }

/-- R185: the frame is held, so it stays at the head of the command port and nothing changes (log entry 18). -/
def holdFrame (s : State) : StepOutcome := .next s

/-- R213: the frame of `n` words is accepted and discarded, without effect and without a response. -/
def discardFrame (n : Nat) (s : State) : StepOutcome := .next (retire n s)

/-- R10 `emit(v)`: append a word to the response FIFO. -/
def emit (v : Word) (s : State) : State := { s with resp := s.resp ++ [v] }

/-- R212 `raise Fault(c)`: the one way into phase FAULT. Only the phase and the cause are written; the faulting frame of
`n` words is removed from the command port and emits no response. -/
def raiseFault (c : Cause) (n : Nat) (s : State) : State := retire n { s with phase := .fault, cause := c }

/-- The registers a round reads and writes (43_controller.md R152..R154). -/
structure Datapath where
  cells : Cells
  r1 : Word
  r2 : Word
deriving DecidableEq, Repr

/-- No cell is 0, so every cell is in [1, P] (10_state.md R22). -/
def cellsLegal (cells : Cells) : Bool := decide (∀ i : Fin 16, cells[i] ≠ 0)

/-- Read the datapath for a round: an unwritten register faults, since 10_state.md R35 says "A rule that reads one must fault. It must not
read 0 or any other chosen value." (93_implementation_defined.md U1: `fault` on read; 92_eei_decisions.md D25); a 0 cell is refused
(D25); and otherwise the round `k` runs on the values. No run reaches the first two (R35; D25). -/
def withDatapath (s : State) (k : Datapath → StepOutcome) : StepOutcome :=
  match s.cells, s.r1, s.r2 with
  | none, _, _ => .fault .unwrittenCells
  | some _, none, _ => .fault .unwrittenR1
  | some _, some _, none => .fault .unwrittenR2
  | some c, some a, some b => if cellsLegal c then k { cells := c, r1 := a, r2 := b } else .refused .illegalCell

/-- Write the datapath registers, and `x` where a round gives it (43_controller.md R159). -/
def writeDatapath (d : Datapath) (x : Option XBuf) (s : State) : State :=
  { s with cells := some d.cells, r1 := some d.r1, r2 := some d.r2, x := x }

end Sys2Proof.Machine
end

