-- ==== Sys2Proof/Machine/Controller.lean ====
section
/-! DEFINITION. The controller: key loading, the three kinds of round, and its step (43_controller.md R150..R159). -/

namespace Sys2Proof.Machine

/-- What a round gives: the registers after it, the `x` its BR wrote, and F's result `w` (R159). -/
structure RoundResult where
  next : Datapath
  x : XBuf
  w : Word
deriving DecidableEq, Repr

/-- The round's keystream word `z = w ^ x[3]` (R153, R154). -/
def roundZ (o : RoundResult) : Word := o.w ^^^ o.x[3]

/-- R152: BR, F, then LFSR_INIT with `u = w >> 1`. -/
def initRoundData (d : Datapath) : RoundResult :=
  let x := br d.cells
  let f := nonlinearF x d.r1 d.r2
  { next := { cells := lfsrInit d.cells (f.w.extractLsb' 1 31), r1 := f.r1, r2 := f.r2 }, x := x, w := f.w }

/-- R153, R154: BR, F, then LFSR_WORK. -/
def workRoundData (d : Datapath) : RoundResult :=
  let x := br d.cells
  let f := nonlinearF x d.r1 d.r2
  { next := { cells := lfsrWork d.cells, r1 := f.r1, r2 := f.r2 }, x := x, w := f.w }

/-- The registers right after KEYLOAD: r1 = r2 = 0 (R151). -/
def loadedDatapath (key iv : Bytes16) : Datapath := { cells := keyCells key iv, r1 := 0, r2 := 0 }

/-- R151 KEYLOAD: cells, r1 and r2 written, `x` and the cause not, `ctrl <- (INIT, 0)`. -/
def keyLoad (key iv : Bytes16) (s : State) : State :=
  writeDatapath (loadedDatapath key iv) s.x { s with phase := .init, round := 0 }

/-- R152 INIT_ROUND. -/
def initRound (s : State) : StepOutcome :=
  withDatapath s fun d =>
    let o := initRoundData d
    .next (writeDatapath o.next (some o.x) { s with round := s.round + 1 })

/-- R153 WARMUP_ROUND: its word is discarded. -/
def warmupRound (s : State) : StepOutcome :=
  withDatapath s fun d =>
    let o := workRoundData d
    .next (writeDatapath o.next (some o.x) { s with phase := .ready, round := 33 })

/-- R154 GEN_ROUND: one keystream word emitted. -/
def genRound (s : State) : StepOutcome :=
  withDatapath s fun d =>
    let o := workRoundData d
    .next (emit (roundZ o) (writeDatapath o.next (some o.x) s))

/-- R155: the controller's step. It exists exactly in phase INIT, where the round count picks the round; in every other phase
the controller has no step, and its turn changes nothing (log entry 12). A count above 32 never occurs in INIT (R27). -/
def controllerStep (s : State) : StepOutcome :=
  match s.phase with
  | .init =>
    if s.round.toNat < Config.initRounds then initRound s
    else if s.round.toNat = Config.initRounds then warmupRound s
    else .refused .roundOutOfRange
  | .uninit | .ready | .fault => .next s

end Sys2Proof.Machine
end

