-- ==== Sys2Proof/Machine/Flags.lean ====
section
/-! DEFINITION. CORE has no condition codes (10_state.md R31). Its status is the three controller fields, and this file gives
their codes and the STATUS word that shows them (30_encoding.md R75). -/

namespace Sys2Proof.Machine

/-- The 2-bit code of a phase (10_state.md R26). -/
def phaseCode : Phase → BitVec 2
  | .uninit => 0
  | .init => 1
  | .ready => 2
  | .fault => 3

/-- The 4-bit code of a fault cause (60_exceptions.md R210). -/
def causeCode : Cause → BitVec 4
  | .none => 0
  | .illegalCommand => 1
  | .notReady => 2

/-- R75: `zext_32(cause) << 16 | zext_32(round) << 8 | zext_32(phase)`. -/
def statusWord (s : State) : Word :=
  ((causeCode s.cause).setWidth 32 <<< 16) ||| (s.round.setWidth 32 <<< 8) ||| (phaseCode s.phase).setWidth 32

/-- The `PHASE` field of a status word (R75). -/
def statusPhase (w : Word) : BitVec 2 := w.extractLsb' 0 2

/-- The `ROUND` field of a status word (R75). -/
def statusRound (w : Word) : BitVec 6 := w.extractLsb' 8 6

/-- The `CAUSE` field of a status word (R75). -/
def statusCause (w : Word) : BitVec 4 := w.extractLsb' 16 4

end Sys2Proof.Machine
end

