-- ==== Sys2Proof/Machine/HostCommands.lean ====
section
/-! DEFINITION. The acceptance of each command frame at the head of the command port, in every phase (44_host_commands.md R180..R185).
A meaning is applied to a state whose command port still holds the frame: it removes the frame or holds it
(log entry 19). -/

namespace Sys2Proof.Machine

/-- R181 LOAD: perform in UNINIT and READY, hold in INIT, discard in FAULT. The frame is nine words (30_encoding.md R72). -/
def execLoad (key iv : Bytes16) (s : State) : StepOutcome :=
  match s.phase with
  | .uninit | .ready => .next (keyLoad key iv (retire 9 s))
  | .init => holdFrame s
  | .fault => discardFrame 9 s

/-- R182 GEN: perform in READY, held while the FIFO is full; hold in INIT; NOT_READY in UNINIT (60_exceptions.md R214); discard in
FAULT. -/
def execGen (s : State) : StepOutcome :=
  match s.phase with
  | .ready => if s.resp.length = Config.respDepth then holdFrame s else genRound (retire 1 s)
  | .init => holdFrame s
  | .uninit => .next (raiseFault .notReady 1 s)
  | .fault => discardFrame 1 s

/-- R183 STATUS: the status word emitted in every phase, held while the FIFO is full. -/
def execStatus (s : State) : StepOutcome :=
  if s.resp.length = Config.respDepth then holdFrame s else .next (emit (statusWord s) (retire 1 s))

/-- R184, R211: an illegal header raises ILLEGAL_COMMAND, and is discarded in FAULT. It is never held. -/
def illegalHeader (s : State) : StepOutcome :=
  match s.phase with
  | .fault => discardFrame 1 s
  | .uninit | .init | .ready => .next (raiseFault .illegalCommand 1 s)

end Sys2Proof.Machine
end

