-- ==== Sys2Proof/Machine/Dispatch.lean ====
section
/-! DEFINITION. One arm per command, each a direct call of its meaning. -/

namespace Sys2Proof.Machine

def exec (i : Instr) (s : State) : Host.Outcome State Fault Refusal :=
  match i with
  | .load key iv => Sys2Proof.Machine.execLoad key iv s
  | .gen => Sys2Proof.Machine.execGen s
  | .status => Sys2Proof.Machine.execStatus s

end Sys2Proof.Machine
end

