-- ==== Sys2Proof/Machine/Agents.lean ====
section
/-! DEFINITION. The moves of the agents around the datapath: the host's sends and pops, CORE's acceptance step, the platform's
reset, and which move comes next (20_memory.md R60; 44_host_commands.md R180, R186; 70_reset_and_hazards.md R240). -/

namespace Sys2Proof.Machine

/-- The host puts a word on the command port. A second host stream on the same port is refused (60_exceptions.md R221;
70_reset_and_hazards.md R245). -/
def sendTurn (host : Nat) (w : Word) (s : State) : StepOutcome :=
  if s.owner = none ∨ s.owner = some host then .next { s with port := s.port ++ [w], owner := some host }
  else .refused .interleavedHosts

/-- R180: the frame at the head of the command port is decoded and performed or held. The words of an incomplete frame wait in
the frame assembler (10_state.md R30; 30_encoding.md R77); with no word there is no step (60_exceptions.md R225). -/
def acceptTurn (s : State) : StepOutcome :=
  match decode (frameWords s) with
  | .frame i _ => exec i s
  | .illegal _ _ => illegalHeader s
  | .incomplete => .next { s with pend := frameWords s, port := [] }
  | .empty => .next s

/-- R186: the head word of `resp` is removed and delivered. With an empty FIFO there is no pop step. -/
def popTurn (s : State) : State :=
  match s.resp with
  | [] => s
  | v :: rest => { s with resp := rest, delivered := s.delivered ++ [v] }

/-- R240: every piece of CORE's state takes its reset value, and a partial or held frame is discarded with whatever else waits
on the command port (log entry 5). The host's record of delivered words, the port's owner and the agents' later moves are
not CORE's state and stay. -/
def resetTurn (s : State) : State :=
  { State.reset with delivered := s.delivered, owner := s.owner, sched := s.sched }

/-- One move of one agent. -/
def takeTurn (t : Turn) (s : State) : StepOutcome :=
  match t with
  | .send host w => sendTurn host w s
  | .accept => acceptTurn s
  | .controller => controllerStep s
  | .pop => .next (popTurn s)
  | .reset => .next (resetTurn s)

/-- None of these moves is a word from the host or a reset. -/
def noInput (turns : List Turn) : Bool :=
  turns.all fun t => match t with
    | .send _ _ | .reset => false
    | .accept | .controller | .pop => true

/-- The move CORE makes on its own when no move is planned: the controller's step while one is enabled, else an acceptance
step, so that an enabled controller step is eventually taken (43_controller.md R156; log entry 3). -/
def ownTurn (s : State) : Turn :=
  match s.phase with
  | .init => .controller
  | .uninit | .ready | .fault => .accept

/-- The next move, and the state with that move taken off the schedule. -/
def nextTurn (s : State) : Turn × State :=
  match s.sched with
  | [] => (ownTurn s, s)
  | t :: rest => (t, { s with sched := rest })

/-- `s` with the instruction whose bits are `w` at the head of the command port, no partial frame before it, and an
acceptance step as the next move (log entry 14). -/
def placeTableWord (s : State) (nbits w : Nat) : State :=
  { s with pend := [], port := tableWords nbits w ++ s.port, sched := .accept :: s.sched }

end Sys2Proof.Machine
end

