-- ==== Sys2Proof/Machine/Step.lean ====
section
/-! DEFINITION. One step of the machine: the next agent in the schedule makes its move. -/

namespace Sys2Proof.Machine

/-- One step (92_eei_decisions.md D1): a host frame acceptance, a controller round, a host send or pop, or a reset. -/
def step (s : State) : Host.Outcome State Fault Refusal :=
  takeTurn (nextTurn s).1 (nextTurn s).2

/-- `s` with an instruction stored where the next step takes it. -/
def State.withFetchWord (s : State) (nbits w : Nat) : State := placeTableWord s nbits w

end Sys2Proof.Machine
end

