-- ==== Sys2Proof/Machine/Consumer.lean ====
section
/-! DEFINITION. The keystream as a function of key and IV (43_controller.md R157), its serialization (30_encoding.md R80), and the
host procedures over it (45_keystream_consumer.md R200..R203). These are the host's: no command of CORE runs them. -/

namespace Sys2Proof.Machine

/-- R80 `ser`: the four bytes of a word, most significant first. -/
def serWord (z : Word) : List Byte :=
  [z.extractLsb' 24 8, z.extractLsb' 16 8, z.extractLsb' 8 8, z.extractLsb' 0 8]

/-- R203: parse four bytes big-endian. -/
def parseWord : List Byte → Option Word
  | [a, b, c, d] => some (a ++ b ++ c ++ d)
  | _ => none

/-- `n` init rounds in a row (43_controller.md R152). -/
def initRoundsFrom : Nat → Datapath → Datapath
  | 0, d => d
  | n + 1, d => initRoundsFrom n (initRoundData d).next

/-- The registers when the controller reaches READY: KEYLOAD, the init rounds, the warm-up round (43_controller.md R158). -/
def constructed (key iv : Bytes16) : Datapath :=
  (workRoundData (initRoundsFrom Config.initRounds (loadedDatapath key iv))).next

/-- The registers `k` controller steps after a LOAD, for k up to 33: the init rounds, then the warm-up round (43_controller.md R155). -/
def afterLoadRounds (k : Nat) (key iv : Bytes16) : Datapath :=
  if k ≤ Config.initRounds then initRoundsFrom k (loadedDatapath key iv) else constructed key iv

/-- The next `n` keystream words from these registers (43_controller.md R154). -/
def keystreamFrom : Nat → Datapath → List Word
  | 0, _ => []
  | n + 1, d => roundZ (workRoundData d) :: keystreamFrom n (workRoundData d).next

/-- The registers after `n` GEN rounds (43_controller.md R154). -/
def genRoundsFrom : Nat → Datapath → Datapath
  | 0, d => d
  | n + 1, d => genRoundsFrom n (workRoundData d).next

/-- The first `n` keystream words of a key and IV (43_controller.md R157). -/
def keystream (key iv : Bytes16) (n : Nat) : List Word := keystreamFrom n (constructed key iv)

/-- R200: `ceil(L / 4)` words for L bytes. -/
def wordsForBytes (len : Nat) : Nat := (len + 3) / 4

/-- R201: `ceil(N / 32)` words for N bits. -/
def wordsForBits (bits : Nat) : Nat := (bits + 31) / 32

/-- R200: the serializations, first word first. -/
def keystreamBytes (words : List Word) : List Byte := words.flatMap serWord

/-- R200: byte-for-byte XOR, the keystream truncated to the data's length. -/
def xorBytes (data ks : List Byte) : List Byte := List.zipWith (· ^^^ ·) data ks

/-- R200 XOR_KEYSTREAM(key, iv, data), as a function. -/
def xorKeystream (key iv : Bytes16) (data : List Byte) : List Byte :=
  xorBytes data (keystreamBytes (keystream key iv (wordsForBytes data.length)))

/-- The bits of a byte, most significant first. -/
def byteBits (b : Byte) : List Bool := (List.range 8).map b.getMsbD

/-- R201: the leading `bits` bits of the serialization of `ceil(bits / 32)` words. -/
def keystreamBits (key iv : Bytes16) (bits : Nat) : List Bool :=
  ((keystreamBytes (keystream key iv (wordsForBits bits))).flatMap byteBits).take bits

/-- The moves in which host stream `host` sends a frame and CORE takes an acceptance step. -/
def frameTurns (host : Nat) (i : Instr) : List Turn := (encode i).map (Turn.send host) ++ [.accept]

/-- A LOAD, and the 33 controller steps it starts (43_controller.md R156). -/
def loadTurns (host : Nat) (key iv : Bytes16) : List Turn :=
  frameTurns host (.load key iv) ++ List.replicate (Config.initRounds + Config.warmupSteps) .controller

/-- A LOAD, `k` controller steps, and a STATUS (44_host_commands.md R183's "STATUS sent right after LOAD"). -/
def afterLoadTurns (host : Nat) (key iv : Bytes16) (k : Nat) : List Turn :=
  frameTurns host (.load key iv) ++ List.replicate k .controller ++ frameTurns host .status

/-- A GEN, and the pop of its word (R200). -/
def genTurns (host : Nat) : List Turn := frameTurns host .gen ++ [.pop]

/-- `n` times a GEN and its pop (R200). -/
def gensTurns (host : Nat) : Nat → List Turn
  | 0 => []
  | n + 1 => genTurns host ++ gensTurns host n

/-- R200's expansion of XOR_KEYSTREAM over `len` bytes: one LOAD frame, then `ceil(len / 4)` GEN frames, each popped. DESIGN CHOICE (log
entry 24): this is one interleaving of many, the one with all 33 controller steps before the first GEN is sent. The spec leaves
the interleaving open, and a GEN may be sent at once and held (44_host_commands.md R182; 70_reset_and_hazards.md R243). -/
def xorTurns (host : Nat) (key iv : Bytes16) (len : Nat) : List Turn :=
  loadTurns host key iv ++ gensTurns host (wordsForBytes len)

end Sys2Proof.Machine
end

