-- ==== Sys2Proof/Machine/Assembler.lean ====
section
/-! DEFINITION. The text form of command sequences and its pseudo-instructions (30_encoding.md R81): the host's, not CORE's. -/

namespace Sys2Proof.Machine

/-- One line of the text form (R81). -/
inductive AsmLine where
  /-- Nothing but space or a comment. -/
  | blank
  | load (key iv : List Byte)
  | gen
  | status
  /-- `.word`: one raw word. -/
  | word (w : Word)
  /-- `KEYSTREAM n`. -/
  | keystream (n : Nat)
  /-- `WAIT_READY`. -/
  | waitReady
  /-- `XOR_KEYSTREAM key, iv, data`. -/
  | xorKeystream (key iv data : List Byte)
deriving DecidableEq, Repr

/-- `WAIT_READY` repeats while a status response has `PHASE` = 1, INIT (R81). -/
def waitAgain (status : Word) : Bool := statusPhase status = phaseCode .init

/-- The words WAIT_READY's loop puts on the command port when it reads `responses`: a STATUS for each response up to the first whose PHASE is
not INIT, that one's included (R81). `none` if the responses end while PHASE is INIT: the loop has not ended. -/
def waitReadyWords : List Word → Option (List Word)
  | [] => none
  | z :: responses =>
    if waitAgain z = true then (waitReadyWords responses).map (encode .status ++ ·) else some (encode .status)

/-- The command-port words of a line. `responses` is what the loop of a WAIT_READY line reads, since it depends on the schedule
(70_reset_and_hazards.md R249; HostLoop.lean runs the loop on the machine). Buffers of a wrong length are rejected (30_encoding.md R73). -/
def assembleLine (responses : List Word) : AsmLine → Option (List Word)
  | .blank => some []
  | .load key iv => (mkLoad key iv).map encode
  | .gen => some (encode .gen)
  | .status => some (encode .status)
  | .word w => some [w]
  | .keystream n => some ((List.replicate n (encode .gen)).flatten)
  | .waitReady => waitReadyWords responses
  | .xorKeystream key iv data =>
    (mkLoad key iv).map fun i => encode i ++ (List.replicate (wordsForBytes data.length) (encode .gen)).flatten

/-- The command-port words of a program from its line `k` on, whose loop, if it is a WAIT_READY, reads `responses k`. -/
def assembleFrom (responses : Nat → List Word) (k : Nat) : List AsmLine → Option (List Word)
  | [] => some []
  | l :: rest =>
    match assembleLine (responses k) l, assembleFrom responses (k + 1) rest with
    | some ws, some more => some (ws ++ more)
    | _, _ => none

/-- R81: the command-port words of a program. -/
def assemble (responses : Nat → List Word) (lines : List AsmLine) : Option (List Word) := assembleFrom responses 0 lines

/-- A hexadecimal digit, either case (log entry 17). -/
def hexDigit (c : Char) : Option Nat :=
  if '0' ≤ c ∧ c ≤ '9' then some (c.toNat - '0'.toNat)
  else if 'a' ≤ c ∧ c ≤ 'f' then some (c.toNat - 'a'.toNat + 10)
  else if 'A' ≤ c ∧ c ≤ 'F' then some (c.toNat - 'A'.toNat + 10)
  else none

/-- Hex digits give bytes in order, two digits each (R81). -/
def hexBytes : List Char → Option (List Byte)
  | [] => some []
  | [_] => none
  | a :: b :: rest =>
    match hexDigit a, hexDigit b, hexBytes rest with
    | some x, some y, some more => some (BitVec.ofNat 8 (16 * x + y) :: more)
    | _, _, _ => none

/-- The number a hex literal's digits write after `acc`; an underscore is a digit separator only (00_scope.md R8), and
`innerUnderscores` says where one may stand. -/
def hexNumber (acc : Nat) : List Char → Option Nat
  | [] => some acc
  | c :: rest =>
    if c = '_' then hexNumber acc rest
    else match hexDigit c with
      | some x => hexNumber (16 * acc + x) rest
      | none => none

/-- The number a run of decimal digits writes after `acc`. -/
def decNumber (acc : Nat) : List Char → Option Nat
  | [] => some acc
  | c :: rest => if '0' ≤ c ∧ c ≤ '9' then decNumber (10 * acc + (c.toNat - '0'.toNat)) rest else none

/-- The rest of `cs` after the text `t`, if it begins with `t`. -/
def afterText (t cs : List Char) : Option (List Char) :=
  match t, cs with
  | [], rest => some rest
  | _ :: _, [] => none
  | a :: t', c :: cs' => if a = c then afterText t' cs' else none

/-- Drop the spaces and tabs at the front. -/
def skipSpace (cs : List Char) : List Char := cs.dropWhile fun c => c = ' ' || c = '\t'

/-- Drop the comment, then the space at both ends (R81). -/
def cleanLine (cs : List Char) : List Char :=
  (skipSpace (skipSpace (cs.takeWhile (· ≠ ';'))).reverse).reverse

/-- `<name>=<hex digits>`, all of `cs`. -/
def hexOperand (name cs : List Char) : Option (List Byte) := ((afterText name (skipSpace cs)).bind fun r => afterText ['='] r).bind hexBytes

/-- The parts of an operand list between its commas. -/
def splitCommas : List Char → List (List Char)
  | [] => [[]]
  | c :: rest =>
    if c = ',' then [] :: splitCommas rest
    else match splitCommas rest with
      | [] => [[c]]
      | p :: ps => (c :: p) :: ps

/-- The operands of LOAD. -/
def loadOperands (cs : List Char) : Option AsmLine :=
  match splitCommas cs with
  | [a, b] =>
    match hexOperand "key".toList a, hexOperand "iv".toList b with
    | some key, some iv => some (.load key iv)
    | _, _ => none
  | _ => none

/-- The operands of XOR_KEYSTREAM, as 95_test_vectors.md P6 writes them. -/
def xorOperands (cs : List Char) : Option AsmLine :=
  match splitCommas cs with
  | [a, b, c] =>
    match hexOperand "key".toList a, hexOperand "iv".toList b, hexOperand "data".toList c with
    | some key, some iv, some data => some (.xorKeystream key iv data)
    | _, _, _ => none
  | _ => none

/-- The underscores of a literal stand inside it: neither its first nor its last character is one. So it is not empty
either (log entry 17). -/
def innerUnderscores (digits : List Char) : Bool :=
  match digits.head?, digits.getLast? with
  | some a, some b => a ≠ '_' && b ≠ '_'
  | _, _ => false

/-- The operand of `.word`: hex digits that write a number below 2^32, with or without `0x`. R81 says `<hex>` alone, and R8 that an
underscore inside a literal is a digit separator only. DESIGN CHOICE (log entry 17): an underscore stands between two
digits or beside another underscore, never first or last; and there is no bound on the number of digits beside that on
the number they write, so leading zeros may be as many as one likes. -/
def wordOperand (cs : List Char) : Option AsmLine :=
  let digits := match afterText "0x".toList cs with
    | some rest => rest
    | none => cs
  match hexNumber 0 digits with
  | some v => if innerUnderscores digits = true ∧ v < 2 ^ 32 then some (.word (BitVec.ofNat 32 v)) else none
  | none => none

/-- The operand of KEYSTREAM: a decimal number. -/
def keystreamOperand (cs : List Char) : Option AsmLine :=
  if cs = [] then none else (decNumber 0 cs).map .keystream

/-- What follows the mnemonic `name` and the blanks after it. R81 shows a space there and says nothing of other blanks: DESIGN CHOICE (log
entry 17), one or more spaces or tabs. -/
def operandsOf (name cs : List Char) : Option (List Char) :=
  match afterText name cs with
  | some (c :: rest) => if c = ' ' ∨ c = '\t' then some (skipSpace rest) else none
  | some [] | none => none

/-- The line after its comment and outer space are gone, or `none` if it is none of R81's. -/
def parseClean (cs : List Char) : Option AsmLine :=
  if cs = [] then some .blank
  else if cs = "GEN".toList then some .gen
  else if cs = "STATUS".toList then some .status
  else if cs = "WAIT_READY".toList then some .waitReady
  else match operandsOf "LOAD".toList cs with
    | some rest => loadOperands rest
    | none => match operandsOf "KEYSTREAM".toList cs with
      | some rest => keystreamOperand rest
      | none => match operandsOf "XOR_KEYSTREAM".toList cs with
        | some rest => xorOperands rest
        | none => match operandsOf ".word".toList cs with
          | some rest => wordOperand rest
          | none => none

/-- R81: one line of text. -/
def parseLine (text : String) : Option AsmLine := parseClean (cleanLine text.toList)

/-- R81: a program, one command on each line. -/
def parseLines : List String → Option (List AsmLine)
  | [] => some []
  | l :: rest =>
    match parseLine l, parseLines rest with
    | some a, some more => some (a :: more)
    | _, _ => none

end Sys2Proof.Machine
end

