-- ==== Sys2Proof/Machine/HostLoop.lean ====
section
/-! DEFINITION. The host's procedures on the running machine: WAIT_READY (30_encoding.md R81; 70_reset_and_hazards.md R249) and XOR_KEYSTREAM
(45_keystream_consumer.md R200). The host issues a command and waits for its response. Which moves CORE and the host make
meanwhile is the schedule's choice, so the caller gives them for each command (log entries 23, 25). -/

namespace Sys2Proof.Machine

/-- The moves of one command: the host sends its words, then `moves`. -/
def issueTurns (host : Nat) (i : Instr) (moves : List Turn) : List Turn := (encode i).map (Turn.send host) ++ moves

/-- The host issues one command, on the machine. -/
def issue (host : Nat) (i : Instr) (moves : List Turn) (s : State) : StepOutcome :=
  Sys2Proof.core.run (issueTurns host i moves).length { s with sched := issueTurns host i moves }

/-- The response the host reads to the command it issued at `s`, once the machine is at `t`. Frames are accepted and responses come out
in order (20_memory.md R59) and the command was the last frame, so its response is the last word delivered after those that
waited at `s`, once every frame is accepted and every response popped. There is none before that, nor for a command that was
discarded (60_exceptions.md R213). -/
def answer (moves : List Turn) (s t : State) : Option Word :=
  if noInput moves = true ∧ t.port = [] ∧ t.pend = [] ∧ t.resp = [] then
    (t.delivered.drop (s.delivered.length + s.resp.length)).getLast?
  else none

/-- How far the loop of WAIT_READY has come. -/
inductive WaitEnd where
  /-- The last response's PHASE is not INIT, and the host has left the loop. -/
  | left
  /-- Every response so far says INIT, so the host issues a STATUS again. -/
  | again
  /-- The host still waits for the response to its last STATUS. -/
  | unanswered
  /-- A move stopped the model, with one of its faults or refusals. -/
  | stopped
deriving DecidableEq, Repr

/-- The machine's state, the responses the loop has read, and how far it has come. -/
structure WaitResult where
  state : State
  responses : List Word
  ending : WaitEnd
deriving DecidableEq, Repr

/-- R81 WAIT_READY: issue STATUS and read its response, repeating while its PHASE = 1, INIT. `turns` gives the moves made after each STATUS
is issued; the loop is left at the first response that says otherwise, whatever moves are left. -/
def waitReady (host : Nat) : List (List Turn) → State → WaitResult
  | [], s => { state := s, responses := [], ending := .again }
  | moves :: turns, s =>
    match issue host .status moves s with
    | .next t =>
      match answer moves s t with
      | none => { state := t, responses := [], ending := .unanswered }
      | some z =>
        if waitAgain z = true then
          { waitReady host turns t with responses := z :: (waitReady host turns t).responses }
        else { state := t, responses := [z], ending := .left }
    | .fault _ | .refused _ => { state := s, responses := [], ending := .stopped }

/-- The moves after a command when the controller takes `n` steps before the frame is accepted, and its response is popped at once. -/
def pollMoves (n : Nat) : List Turn := List.replicate n .controller ++ [.accept, .pop]

/-- How far a procedure that pops a word for each GEN has come. -/
inductive PopEnd where
  /-- Every GEN's word has been popped. -/
  | completed
  /-- The host still waits for the word of its last GEN, for ever if the GEN was discarded (R200: in FAULT the procedure never completes). -/
  | unanswered
  /-- A move stopped the model, with one of its faults or refusals. -/
  | stopped
deriving DecidableEq, Repr

/-- The machine's state, the words popped so far, and how far the procedure has come. -/
structure PopResult where
  state : State
  words : List Word
  ending : PopEnd
deriving DecidableEq, Repr

/-- R200's loop `issue GEN; let z_j = pop()`, for `n` words. `moves j` are the moves after the j-th GEN is issued; the next is issued only
when that one's word has been popped. -/
def genWords (host : Nat) : Nat → (Nat → List Turn) → State → PopResult
  | 0, _, s => { state := s, words := [], ending := .completed }
  | n + 1, moves, s =>
    match issue host .gen (moves 0) s with
    | .next t =>
      match answer (moves 0) s t with
      | none => { state := t, words := [], ending := .unanswered }
      | some z =>
        { genWords host n (fun j => moves (j + 1)) t with
          words := z :: (genWords host n (fun j => moves (j + 1)) t).words }
    | .fault _ | .refused _ => { state := s, words := [], ending := .stopped }

/-- R200 XOR_KEYSTREAM's frames and pops on the machine: LOAD, then `ceil(len / 4)` GENs. The GENs do not wait for the LOAD to be
accepted. `loadMoves` are the moves after the LOAD is issued. -/
def popKeystream (host : Nat) (key iv : Bytes16) (len : Nat) (loadMoves : List Turn) (moves : Nat → List Turn) (s : State) :
    PopResult :=
  match issue host (.load key iv) loadMoves s with
  | .next t => genWords host (wordsForBytes len) moves t
  | .fault _ | .refused _ => { state := s, words := [], ending := .stopped }

/-- R200 XOR_KEYSTREAM(key, iv, data) on the machine: the data XOR the serializations of the words popped, or `none` while a word is
still waited for. -/
def runXorKeystream (host : Nat) (key iv : Bytes16) (data : List Byte) (loadMoves : List Turn) (moves : Nat → List Turn)
    (s : State) : Option (List Byte) :=
  let r := popKeystream host key iv data.length loadMoves moves s
  match r.ending with
  | .completed => some (xorBytes data (keystreamBytes r.words))
  | .unanswered | .stopped => none

end Sys2Proof.Machine
end

