-- ==== Sys2Proof/Machine/Platform.lean ====
section
/-! DEFINITION. A platform of several CORE instances (00_scope.md R7; 10_state.md R36; 20_memory.md R65; 60_exceptions.md R221). -/

namespace Sys2Proof.Machine

/-- Each instance has its own copy of every piece of state and its own ports (R36, R221); they share only the constant tables. -/
structure Platform where
  cores : List State
deriving DecidableEq, Repr

/-- A platform right after power-on, which resets every instance (70_reset_and_hazards.md R240). -/
def platformReset : Platform := { cores := List.replicate Config.instances State.reset }

/-- Instance `i` takes one step; which instance steps is the caller's to say, so any interleaving is a run (R65). -/
def platformStep (p : Platform) (i : Fin p.cores.length) : Host.Outcome Platform Fault Refusal :=
  match step p.cores[i] with
  | .next t => .next { cores := p.cores.set i t }
  | .fault r => .fault r
  | .refused r => .refused r

end Sys2Proof.Machine
end

