-- ==== Sys2Proof/Safety.lean ====
section
/-! DEFINITION. What a safe state and a good end are (10_state.md R22, R27..R30; 70_reset_and_hazards.md R251), and the parts of
the state that claims compare. -/

namespace Sys2Proof

open Sys2Proof.Machine

/-- How phase, round and cause go together (10_state.md R26, R27, R28). -/
def ControlOk (s : State) : Prop :=
  match s.phase with
  | .uninit => s.round = 0 ∧ s.cause = .none
  | .init => s.round.toNat ≤ 32 ∧ s.cause = .none
  | .ready => s.round = 33 ∧ s.cause = .none
  | .fault => s.round.toNat ≤ 33 ∧ s.cause ≠ .none

/-- Which registers hold a value in which phase (10_state.md R34, R35; 43_controller.md R151), and every cell that does is in
[1, P] (10_state.md R22). Cells, r1 and r2 are written together or not at all. -/
def RegistersOk (s : State) : Prop :=
  (s.cells.isSome = s.r1.isSome ∧ s.r1.isSome = s.r2.isSome) ∧
  (s.x.isSome = true → s.cells.isSome = true) ∧
  (s.phase = .uninit → s.cells = none) ∧
  (s.phase = .init ∨ s.phase = .ready → s.cells.isSome = true) ∧
  (s.phase = .ready → s.x.isSome = true) ∧
  (∀ c, s.cells = some c → cellsLegal c = true)

/-- The response FIFO is within its capacity (10_state.md R29), and the frame assembler holds nothing or the beginning of a LOAD
frame, at most 8 words (10_state.md R30). -/
def PortsOk (s : State) : Prop :=
  s.resp.length ≤ Config.respDepth ∧
  (s.pend = [] ∨ (s.pend.head? = some 0x00000001 ∧ s.pend.length ≤ 8))

/-- The invariant of every run. -/
def StateInv (s : State) : Prop := ControlOk s ∧ RegistersOk s ∧ PortsOk s

/-- The next move of `s` is not a word from a second host stream (70_reset_and_hazards.md R245). -/
def OneHost (s : State) : Prop :=
  ∀ host w, (nextTurn s).1 = .send host w → s.owner = none ∨ s.owner = some host

/-- No planned move is a word from the host or a reset (70_reset_and_hazards.md R251 (a), (d); log entry 22). -/
def noInputLeft (s : State) : Bool := noInput s.sched

/-- R251: the run has ended. DESIGN CHOICE (log entry 22), since R251 leaves both open: a frame on the command port that CORE has not
accepted counts as left to send in (a), so `port` must be empty; and a response word that a reset discarded does not count
in (c), so `resp` empty is all that (c) asks. -/
def Ended (s : State) : Prop :=
  (noInputLeft s = true ∧ s.port = [] ∧ s.pend = []) ∧ s.phase ≠ .init ∧ s.resp = []

/-- R251: a good end. -/
def GoodEnd (s : State) : Prop := Ended s ∧ (s.phase = .uninit ∨ s.phase = .ready)

/-- R251, R213: a bad end. -/
def BadEnd (s : State) : Prop := Ended s ∧ s.phase = .fault

/-- Two states agree on everything the key stream depends on: phase, round, cells, r1 and r2 (43_controller.md R157). -/
def SameGenerator (s t : State) : Prop :=
  s.phase = t.phase ∧ s.round = t.round ∧ s.cells = t.cells ∧ s.r1 = t.r1 ∧ s.r2 = t.r2

/-- Two states agree on the whole controller and datapath (R60's "datapath state", with cause and x). -/
def SameCore (s t : State) : Prop :=
  SameGenerator s t ∧ s.cause = t.cause ∧ s.x = t.x

end Sys2Proof
end

