-- ==== Sys2Proof/Certificates/Slice0/Obligations.lean ====
section
/-! DEFINITION. The statements for the provers, in the order of the spec's files. A fault of the spec (phase FAULT) is a next
state here; `Host.Outcome.fault` and `refused` are the model's own stops. -/

open Sys2Proof Sys2Proof.Machine

-- Reset (10_state.md R34; 70_reset_and_hazards.md R240)

/-- R34, R35: the value of every piece of CORE state after reset; `none` is the spec's "no value (unwritten)". -/
def Obligations.ResetLeavesSpecValues : Prop :=
  State.reset.phase = .uninit ∧ State.reset.round = 0 ∧ State.reset.cause = .none ∧ State.reset.resp = [] ∧
  State.reset.pend = [] ∧ State.reset.cells = none ∧ State.reset.r1 = none ∧ State.reset.r2 = none ∧ State.reset.x = none

/-- R240: a reset step puts all of CORE back to its reset values from any state. That it also empties the command port, and keeps
the host's record, the owner and the later moves, is the model's choice (log entries 5, 6, 7). -/
def Obligations.ResetStepRestoresResetState : Prop :=
  ∀ (s : State) (rest : List Turn), s.sched = .reset :: rest →
    step s = .next { State.reset with delivered := s.delivered, owner := s.owner, sched := rest }

-- Encodings (30_encoding.md)

/-- R82: a header decodes to exactly one of LOAD, GEN, STATUS and ILLEGAL. -/
def Obligations.HeaderDecodesToExactlyOne : Prop :=
  ∀ h : Word,
    (decodeHeader h = .load ↔ h = 0x00000001) ∧ (decodeHeader h = .gen ↔ h = 0x00000002) ∧
    (decodeHeader h = .status ↔ h = 0x00000003) ∧
    (decodeHeader h = .illegal ↔ h ≠ 0x00000001 ∧ h ≠ 0x00000002 ∧ h ≠ 0x00000003)

/-- R76: a header is an illegal one-word frame exactly when its OPC is unassigned or its RSV is nonzero; accepting one outside
FAULT raises ILLEGAL_COMMAND; every payload of a LOAD is legal. -/
def Obligations.IllegalHeadersAreOneWordFrames : Prop :=
  (∀ (h : Word) (rest : List Word),
    decode (h :: rest) = .illegal h rest ↔
      ((opcField h ≠ 0x01 ∧ opcField h ≠ 0x02 ∧ opcField h ≠ 0x03) ∨ rsvField h ≠ 0)) ∧
  (∀ (s : State) (h : Word) (rest : List Word), s.pend ++ s.port = h :: rest →
    ((opcField h ≠ 0x01 ∧ opcField h ≠ 0x02 ∧ opcField h ≠ 0x03) ∨ rsvField h ≠ 0) → s.phase ≠ .fault →
    acceptTurn s = .next { s with phase := .fault, cause := .illegalCommand, pend := [], port := rest }) ∧
  (∀ (payload rest : List Word), payload.length = 8 → ∃ i, decode (0x00000001 :: (payload ++ rest)) = .frame i rest)

/-- R72, R73: words written out from the spec decode to the commands they stand for (the LOAD is 95_test_vectors.md's third
vector). -/
def Obligations.SpecWordsDecode : Prop :=
  decode [0x00000001, 0x3D4C4BE9, 0x6A82FDAE, 0xB58F641D, 0xB17B455B, 0x84319AA8, 0xDE6915CA, 0x1F6BDA6B, 0xFBD8C766] =
    .frame (.load
      #v[0x3d, 0x4c, 0x4b, 0xe9, 0x6a, 0x82, 0xfd, 0xae, 0xb5, 0x8f, 0x64, 0x1d, 0xb1, 0x7b, 0x45, 0x5b]
      #v[0x84, 0x31, 0x9a, 0xa8, 0xde, 0x69, 0x15, 0xca, 0x1f, 0x6b, 0xda, 0x6b, 0xfb, 0xd8, 0xc7, 0x66]) [] ∧
  decode [0x00000002] = .frame .gen [] ∧ decode [0x00000003] = .frame .status [] ∧
  decode [0x00000102] = .illegal 0x00000102 [] ∧ decode [0x00000000] = .illegal 0x00000000 []

/-- R71..R73: decoding the words of any command gives it back, whatever follows it, with every key and IV byte at every value. -/
def Obligations.DecodeOfEncodeIsIdentity : Prop :=
  ∀ (i : Instr) (rest : List Word), decode (encode i ++ rest) = .frame i rest

/-- R71..R73, R82: a word sequence that decodes to a command is that command's one encoding and what follows it. -/
def Obligations.EncodeOfDecodedFrame : Prop :=
  ∀ (ws : List Word) (i : Instr) (rest : List Word), decode ws = .frame i rest → ws = encode i ++ rest

/-- R73: the eight payload words of a LOAD, both ways; every payload word legal; and the rejection of buffers of a wrong length. -/
def Obligations.LoadPayloadPacksBigEndian : Prop :=
  (∀ key iv : Bytes16, ∃ p : Vector Word 8, encode (.load key iv) = 0x00000001 :: p.toList ∧
    (∀ j : Fin 4,
      p[j.val]'(by omega) = key[4 * j.val]'(by omega) ++ key[4 * j.val + 1]'(by omega) ++ key[4 * j.val + 2]'(by omega)
        ++ key[4 * j.val + 3]'(by omega) ∧
      p[4 + j.val]'(by omega) = iv[4 * j.val]'(by omega) ++ iv[4 * j.val + 1]'(by omega) ++ iv[4 * j.val + 2]'(by omega)
        ++ iv[4 * j.val + 3]'(by omega)) ∧
    (∀ i : Fin 16,
      key[i] = (p[i.val / 4]'(by omega)).extractLsb' (24 - 8 * (i.val % 4)) 8 ∧
      iv[i] = (p[4 + i.val / 4]'(by omega)).extractLsb' (24 - 8 * (i.val % 4)) 8)) ∧
  (∀ p : Vector Word 8, ∃ key iv, decode (0x00000001 :: p.toList) = .frame (.load key iv) []) ∧
  (∀ key iv : List Byte, mkLoad key iv = none ↔ key.length ≠ 16 ∨ iv.length ≠ 16)

/-- R77: the decoder waits exactly on a LOAD frame whose eighth payload word has not arrived. -/
def Obligations.IncompleteExactlyPartialLoad : Prop :=
  ∀ ws : List Word, decode ws = .incomplete ↔ ws.head? = some 0x00000001 ∧ ws.length ≤ 8

/-- R77, R76: the whole-stream decoder cuts a stream of commands and illegal headers into its frames, refuses with `truncated` one that
ends inside a LOAD frame, and gives only frames whose words are the stream's. -/
def Obligations.StreamDecoderCutsFrames : Prop :=
  (∀ frames : List Frame, (∀ h, Frame.illegal h ∈ frames → decodeHeader h = .illegal) →
    decodeStream (frames.flatMap encodeFrame) = .ok frames ∧
    (∀ part : List Word, part.head? = some 0x00000001 → part.length ≤ 8 →
      decodeStream (frames.flatMap encodeFrame ++ part) = .error .truncated)) ∧
  (∀ (ws : List Word) (frames : List Frame), decodeStream ws = .ok frames →
    ws = frames.flatMap encodeFrame ∧ ∀ h, Frame.illegal h ∈ frames → decodeHeader h = .illegal)

/-- R75: the layout of the status word, its reserved bits, and the spec's examples; with R184's example and R210's codes of the
causes, so that the code of ILLEGAL_COMMAND is stated too. -/
def Obligations.StatusWordLayout : Prop :=
  (∀ s : State,
    (statusWord s).extractLsb' 0 2 = phaseCode s.phase ∧ (statusWord s).extractLsb' 2 6 = 0 ∧
    (statusWord s).extractLsb' 8 6 = s.round ∧ (statusWord s).extractLsb' 14 2 = 0 ∧
    (statusWord s).extractLsb' 16 4 = causeCode s.cause ∧ (statusWord s).extractLsb' 20 12 = 0) ∧
  (∀ s : State,
    (s.phase = .uninit → s.round = 0 → s.cause = .none → statusWord s = 0x00000000) ∧
    (s.phase = .ready → s.round = 33 → s.cause = .none → statusWord s = 0x00002102) ∧
    (s.phase = .init → s.round = 5 → s.cause = .none → statusWord s = 0x00000501) ∧
    (s.phase = .fault → s.round = 0 → s.cause = .notReady → statusWord s = 0x00020003) ∧
    (s.phase = .fault → s.round = 33 → s.cause = .illegalCommand → statusWord s = 0x00012103)) ∧
  (causeCode .none = 0 ∧ causeCode .illegalCommand = 1 ∧ causeCode .notReady = 2)

/-- R81: what each line of the text form expands to, a LOAD line word by word (R73), a WAIT_READY line by the responses its loop reads (it
goes round exactly while PHASE = 1, INIT), and one line of text of each form read. THE MODEL'S CHOICE, and no words of R81: that
WAIT_READY expands by the responses its loop reads, and to nothing (`none`) where they all say INIT (log entry 23); and that
KEYSTREAM's count is decimal, spaces at a line's end are dropped, `0x` may stand before a `.word` literal, and hex digits may be
of either case (log entry 17). -/
def Obligations.AssemblerExpandsLines : Prop :=
  (∀ zs : List Word, assembleLine zs .gen = some [0x00000002] ∧ assembleLine zs .status = some [0x00000003] ∧
    assembleLine zs .blank = some []) ∧
  (∀ (zs : List Word) (w : Word), assembleLine zs (.word w) = some [w]) ∧
  (∀ (zs : List Word) (n : Nat), assembleLine zs (.keystream n) = some (List.replicate n 0x00000002)) ∧
  (∀ z : Word, waitAgain z = true ↔ z.extractLsb' 0 2 = 1) ∧ (∀ s : State, waitAgain (statusWord s) = true ↔ s.phase = .init) ∧
  (∀ zs : List Word, (∀ y ∈ zs, waitAgain y = true) → assembleLine zs .waitReady = none ∧
    ∀ (z : Word) (more : List Word), waitAgain z = false →
      assembleLine (zs ++ z :: more) .waitReady = some (List.replicate (zs.length + 1) 0x00000003)) ∧
  (∀ (zs : List Word) (key iv : Bytes16) (data : List Byte),
    let frame : List Word := [0x00000001,
      key[0] ++ key[1] ++ key[2] ++ key[3], key[4] ++ key[5] ++ key[6] ++ key[7],
      key[8] ++ key[9] ++ key[10] ++ key[11], key[12] ++ key[13] ++ key[14] ++ key[15],
      iv[0] ++ iv[1] ++ iv[2] ++ iv[3], iv[4] ++ iv[5] ++ iv[6] ++ iv[7],
      iv[8] ++ iv[9] ++ iv[10] ++ iv[11], iv[12] ++ iv[13] ++ iv[14] ++ iv[15]]
    assembleLine zs (.load key.toList iv.toList) = some frame ∧
    assembleLine zs (.xorKeystream key.toList iv.toList data) =
      some (frame ++ List.replicate (wordsForBytes data.length) 0x00000002)) ∧
  (∀ (zs : List Word) (key iv data : List Byte), key.length ≠ 16 ∨ iv.length ≠ 16 →
    assembleLine zs (.load key iv) = none ∧ assembleLine zs (.xorKeystream key iv data) = none) ∧
  parseLine "GEN" = some .gen ∧ parseLine "STATUS  ; poll" = some .status ∧ parseLine "WAIT_READY" = some .waitReady ∧
  parseLine ".word 0x00000102" = some (.word 0x00000102) ∧ parseLine "KEYSTREAM 12" = some (.keystream 12) ∧
  parseLine "LOAD key=3d4c4be96a82fdaeb58f641db17b455b, iv=84319aa8de6915ca1f6bda6bfbd8c766" = some (.load
    [0x3d, 0x4c, 0x4b, 0xe9, 0x6a, 0x82, 0xfd, 0xae, 0xb5, 0x8f, 0x64, 0x1d, 0xb1, 0x7b, 0x45, 0x5b]
    [0x84, 0x31, 0x9a, 0xa8, 0xde, 0x69, 0x15, 0xca, 0x1f, 0x6b, 0xda, 0x6b, 0xfb, 0xd8, 0xc7, 0x66]) ∧
  parseLine "XOR_KEYSTREAM key=3d4c4be96a82fdaeb58f641db17b455b, iv=84319aa8de6915ca1f6bda6bfbd8c766, data=001122334455667788" =
    some (.xorKeystream
      [0x3d, 0x4c, 0x4b, 0xe9, 0x6a, 0x82, 0xfd, 0xae, 0xb5, 0x8f, 0x64, 0x1d, 0xb1, 0x7b, 0x45, 0x5b]
      [0x84, 0x31, 0x9a, 0xa8, 0xde, 0x69, 0x15, 0xca, 0x1f, 0x6b, 0xda, 0x6b, 0xfb, 0xd8, 0xc7, 0x66]
      [0x00, 0x11, 0x22, 0x33, 0x44, 0x55, 0x66, 0x77, 0x88])

-- The LFSR and its field (40_lfsr.md)

/-- R101: ADDMOD31's formula over the exact sum, its congruence, its one zero, and the spec's examples. -/
def Obligations.Addmod31AddsModuloP : Prop :=
  (∀ a b : Cell,
    (addmod31 a b).toNat = (a.toNat + b.toNat) % 2 ^ 31 + (a.toNat + b.toNat) / 2 ^ 31 ∧
    (addmod31 a b).toNat ≤ Config.P ∧
    (addmod31 a b).toNat % Config.P = (a.toNat + b.toNat) % Config.P ∧
    (addmod31 a b = 0 ↔ a = 0 ∧ b = 0)) ∧
  addmod31 0x7FFFFFFF 0 = 0x7FFFFFFF ∧ addmod31 0x7FFFFFFE 1 = 0x7FFFFFFF ∧
  addmod31 0x7FFFFFFF 0x7FFFFFFF = 0x7FFFFFFF ∧ addmod31 0x40000000 0x40000000 = 1 ∧
  addmod31 0x7FFFFFFE 0x7FFFFFFE = 0x7FFFFFFD

/-- R102: MULMOD31's product, and its agreement with a 31-bit rotation off the zero class. -/
def Obligations.Mulmod31MultipliesModuloP : Prop :=
  (∀ a b : Cell, (mulmod31 a b).toNat = (a.toNat * b.toNat) % Config.P) ∧
  (∀ b : Cell, mulmod31 0x7FFFFFFF b = 0) ∧
  (∀ (a : Cell) (k : Nat), k ≤ 30 →
    (rot31 a k).toNat % Config.P = (a.toNat * 2 ^ k) % Config.P ∧
    (a ≠ 0x7FFFFFFF → mulmod31 a (BitVec.ofNat 31 (2 ^ k)) = rot31 a k) ∧
    rot31 0x7FFFFFFF k = 0x7FFFFFFF) ∧
  mulmod31 0x12345678 (BitVec.ofNat 31 (2 ^ 17)) = 0x2CF048D1

/-- R107: every chain of `addmod31` over the five terms, each formed by `mulmod31` or `rot31`, in any order and association, and with u
as a sixth term in init mode, is congruent to the exact sum, and is the exact update after the zero substitution. -/
def Obligations.FeedbackChainsEqualExactUpdate : Prop :=
  ∀ (s : Cells) (t15 t13 t10 t4 t0 : Cell) (u : BitVec 31) (chain : AddChain),
    IsShiftTerm t15 s[15] 15 → IsShiftTerm t13 s[13] 17 → IsShiftTerm t10 s[10] 21 → IsShiftTerm t4 s[4] 20 →
    IsLastTerm t0 s[0] →
    ((chainTerms chain).Perm [t15, t13, t10, t4, t0] →
      (chainValue chain).toNat % Config.P = lfsrV s ∧ substZero (chainValue chain) = canonP (lfsrV s)) ∧
    ((chainTerms chain).Perm [t15, t13, t10, t4, t0, u] →
      (chainValue chain).toNat % Config.P = (lfsrV s + u.toNat) % Config.P ∧
      substZero (chainValue chain) = canonP (lfsrV s + u.toNat))

/-- R106: SHIFT moves every cell down by one and puts s16 in the newest. -/
def Obligations.ShiftMovesEveryCell : Prop :=
  ∀ (s : Cells) (s16 : Cell),
    (∀ i : Fin 15, (lfsrShift s s16)[i.val]'(by omega) = s[i.val + 1]'(by omega)) ∧ (lfsrShift s s16)[15] = s16

/-- R104, R105: the new cell of each update is the recurrence's residue, with P for the zero class, and the other cells shift. -/
def Obligations.UpdatesInsertCanonicalFeedback : Prop :=
  ∀ (s : Cells) (u : BitVec 31),
    let sum := 2 ^ 15 * s[15].toNat + 2 ^ 17 * s[13].toNat + 2 ^ 21 * s[10].toNat + 2 ^ 20 * s[4].toNat
      + (2 ^ 8 + 1) * s[0].toNat
    ((lfsrInit s u)[15].toNat = if (sum + u.toNat) % Config.P = 0 then Config.P else (sum + u.toNat) % Config.P) ∧
    ((lfsrWork s)[15].toNat = if sum % Config.P = 0 then Config.P else sum % Config.P) ∧
    (∀ i : Fin 15, (lfsrInit s u)[i.val]'(by omega) = s[i.val + 1]'(by omega) ∧
      (lfsrWork s)[i.val]'(by omega) = s[i.val + 1]'(by omega))

/-- R108, R22: every update writes a value in [1, P], and updates and key loading leave no cell 0. -/
def Obligations.UpdatesKeepCellsInRange : Prop :=
  (∀ (s : Cells) (u : BitVec 31),
    (1 ≤ (lfsrInit s u)[15].toNat ∧ (lfsrInit s u)[15].toNat ≤ Config.P) ∧
    (1 ≤ (lfsrWork s)[15].toNat ∧ (lfsrWork s)[15].toNat ≤ Config.P) ∧
    (cellsLegal s = true → cellsLegal (lfsrInit s u) = true ∧ cellsLegal (lfsrWork s) = true)) ∧
  (∀ (key iv : Bytes16) (i : Fin 16),
    1 ≤ (keyCells key iv)[i].toNat ∧ (keyCells key iv)[i].toNat ≤ Config.P - 1)

-- Bit reconstruction (41_bit_reconstruction.md)

/-- R120: the four words as numbers: the named high halves are bits 30..15 and the named low halves bits 15..0. -/
def Obligations.BrBuildsWordsFromHalves : Prop :=
  ∀ s : Cells,
    (br s)[0].toNat = s[15].toNat / 2 ^ 15 * 2 ^ 16 + s[14].toNat % 2 ^ 16 ∧
    (br s)[1].toNat = s[11].toNat % 2 ^ 16 * 2 ^ 16 + s[9].toNat / 2 ^ 15 ∧
    (br s)[2].toNat = s[7].toNat % 2 ^ 16 * 2 ^ 16 + s[5].toNat / 2 ^ 15 ∧
    (br s)[3].toNat = s[2].toNat % 2 ^ 16 * 2 ^ 16 + s[0].toNat / 2 ^ 15

/-- R121: the source's shift-and-mask form gives the same words. -/
def Obligations.BrEqualsShiftAndMask : Prop := ∀ s : Cells, br s = brShiftMask s

-- The nonlinear function (42_nonlinear_f.md)

/-- R130, R131, R132: the rotation and the two linear layers, their linearity, and the spec's examples. -/
def Obligations.LinearLayersRotateAndXor : Prop :=
  (∀ (v : Word) (k : Nat), k ∈ [2, 8, 10, 14, 18, 22, 24, 30] → rotl32 v k = v.rotateLeft k) ∧
  rotl32 0x80000000 2 = 0x00000002 ∧
  (∀ v : Word, l1 v = v ^^^ v.rotateLeft 2 ^^^ v.rotateLeft 10 ^^^ v.rotateLeft 18 ^^^ v.rotateLeft 24) ∧
  (∀ v : Word, l2 v = v ^^^ v.rotateLeft 8 ^^^ v.rotateLeft 14 ^^^ v.rotateLeft 22 ^^^ v.rotateLeft 30) ∧
  (∀ a b : Word, l1 (a ^^^ b) = l1 a ^^^ l1 b ∧ l2 (a ^^^ b) = l2 a ^^^ l2 b) ∧
  (l1 0 = 0 ∧ l1 0xFFFFFFFF = 0xFFFFFFFF ∧ l1 0x00000001 = 0x01040405 ∧ l1 0x12345678 = 0xAA4E9357) ∧
  (l2 0 = 0 ∧ l2 0xFFFFFFFF = 0xFFFFFFFF ∧ l2 0x00000001 = 0x40404101 ∧ l2 0x80000000 = 0xA0202080)

/-- R133: the four lanes, the bijection, and the spec's examples. -/
def Obligations.SboxSubstitutesFourLanes : Prop :=
  (∀ v : Word,
    (sbox v).extractLsb' 24 8 = romS0 (v.extractLsb' 24 8) ∧ (sbox v).extractLsb' 16 8 = romS1 (v.extractLsb' 16 8) ∧
    (sbox v).extractLsb' 8 8 = romS0 (v.extractLsb' 8 8) ∧ (sbox v).extractLsb' 0 8 = romS1 (v.extractLsb' 0 8)) ∧
  Function.Bijective sbox ∧
  sbox 0x00000000 = 0x3E553E55 ∧ sbox 0xFFFFFFFF = 0x60F260F2 ∧ sbox 0x01234567 = 0x7296EDFB

/-- R134: F's result and its new registers, the concatenations as shifts (90_conflicts.md C3), and x[3] not read. -/
def Obligations.NonlinearFComputesFromOldRegisters : Prop :=
  (∀ (x : XBuf) (r1 r2 : Word),
    (nonlinearF x r1 r2).w = (x[0] ^^^ r1) + r2 ∧
    (nonlinearF x r1 r2).r1 = sbox (l1 (((r1 + x[1]) <<< 16) ||| ((r2 ^^^ x[2]) >>> 16))) ∧
    (nonlinearF x r1 r2).r2 = sbox (l2 (((r2 ^^^ x[2]) <<< 16) ||| ((r1 + x[1]) >>> 16)))) ∧
  (∀ (x y : XBuf) (r1 r2 : Word), x[0] = y[0] → x[1] = y[1] → x[2] = y[2] → nonlinearF x r1 r2 = nonlinearF y r1 r2) ∧
  nonlinearF #v[0, 0, 0, 0] 0 0 = { w := 0, r1 := 0x3E553E55, r2 := 0x3E553E55 } ∧
  (nonlinearF #v[0xFFFFFFFF, 1, 0xFFFFFFFF, 0] 1 0xFFFFFFFF).w = 0xFFFFFFFD ∧
  nonlinearF #v[0x008F9A00, 0xF100005E, 0xAF00006B, 0x6B000089] 0 0 =
    { w := 0x008F9A00, r1 := 0x67822141, r2 := 0x62A3A55F }

-- The controller (43_controller.md)

/-- R150: the transitions of ctrl, and no other: what a step does to (phase, round, cause), by the agent that moved and the frame
at the head of the command port. -/
def Obligations.ControllerTransitionsAreTheTable : Prop :=
  ∀ s t : State, StateInv s → step s = .next t →
    (t.phase = s.phase ∧ t.round = s.round ∧ t.cause = s.cause) ∨
    ((nextTurn s).1 = .reset ∧ t.phase = .uninit ∧ t.round = 0 ∧ t.cause = .none) ∨
    ((nextTurn s).1 = .accept ∧ (∃ key iv rest, decode (s.pend ++ s.port) = .frame (.load key iv) rest) ∧
      (s.phase = .uninit ∨ s.phase = .ready) ∧ t.phase = .init ∧ t.round = 0 ∧ t.cause = .none) ∨
    ((nextTurn s).1 = .controller ∧ s.phase = .init ∧ s.round.toNat ≤ 31 ∧
      t.phase = .init ∧ t.round = s.round + 1 ∧ t.cause = .none) ∨
    ((nextTurn s).1 = .controller ∧ s.phase = .init ∧ s.round = 32 ∧ t.phase = .ready ∧ t.round = 33 ∧ t.cause = .none) ∨
    ((nextTurn s).1 = .accept ∧ (∃ rest, decode (s.pend ++ s.port) = .frame .gen rest) ∧ s.phase = .uninit ∧
      t.phase = .fault ∧ t.round = 0 ∧ t.cause = .notReady) ∨
    ((nextTurn s).1 = .accept ∧ (∃ h rest, decode (s.pend ++ s.port) = .illegal h rest) ∧ s.phase ≠ .fault ∧
      t.phase = .fault ∧ t.round = s.round ∧ t.cause = .illegalCommand)

/-- R151, R181 (LOAD completes): in UNINIT and READY, LOAD loads cell i with `key[i] ++ D[i] ++ iv[i]`, in [1, P-1], zeroes r1 and
r2, starts (INIT, 0), takes its nine words, and leaves everything else. -/
def Obligations.LoadKeysTheGenerator : Prop :=
  ∀ (key iv : Bytes16) (s : State), s.phase = .uninit ∨ s.phase = .ready →
    ∃ cells : Cells,
      (∀ i : Fin 16, cells[i].toNat = key[i].toNat * 2 ^ 23 + (romD i).toNat * 2 ^ 8 + iv[i].toNat ∧
        1 ≤ cells[i].toNat ∧ cells[i].toNat ≤ Config.P - 1) ∧
      exec (.load key iv) s = .next { s with
        cells := some cells, r1 := some 0, r2 := some 0, phase := .init, round := 0,
        pend := [], port := (s.pend ++ s.port).drop 9 }

/-- R152: in INIT with round k <= 31 the controller's step is BR, F and LFSR_INIT with `u = w >> 1`, and leaves everything else. -/
def Obligations.ControllerRunsInitRound : Prop :=
  ∀ (s : State) (cells : Cells) (a b : Word), s.phase = .init → s.round.toNat ≤ 31 →
    s.cells = some cells → s.r1 = some a → s.r2 = some b → cellsLegal cells = true →
    controllerStep s = .next { s with
      x := some (br cells)
      r1 := some (nonlinearF (br cells) a b).r1
      r2 := some (nonlinearF (br cells) a b).r2
      cells := some (lfsrInit cells (((nonlinearF (br cells) a b).w >>> 1).setWidth 31))
      round := s.round + 1 }

/-- R153: in INIT with round 32 the controller's step is BR, F and LFSR_WORK, emits nothing, reaches (READY, 33), and leaves
everything else. -/
def Obligations.ControllerRunsWarmupRound : Prop :=
  ∀ (s : State) (cells : Cells) (a b : Word), s.phase = .init → s.round = 32 →
    s.cells = some cells → s.r1 = some a → s.r2 = some b → cellsLegal cells = true →
    controllerStep s = .next { s with
      x := some (br cells)
      r1 := some (nonlinearF (br cells) a b).r1
      r2 := some (nonlinearF (br cells) a b).r2
      cells := some (lfsrWork cells)
      phase := .ready
      round := 33 }

/-- R154, R182 (GEN completes): in READY with room in the FIFO, GEN emits `w ^ x[3]` of its own round, updates the datapath, takes
its one word, and leaves everything else. -/
def Obligations.GenEmitsKeystreamWord : Prop :=
  ∀ (s : State) (cells : Cells) (a b : Word), s.phase = .ready → s.resp.length ≠ Config.respDepth →
    s.cells = some cells → s.r1 = some a → s.r2 = some b → cellsLegal cells = true →
    exec .gen s = .next { s with
      x := some (br cells)
      r1 := some (nonlinearF (br cells) a b).r1
      r2 := some (nonlinearF (br cells) a b).r2
      cells := some (lfsrWork cells)
      resp := s.resp ++ [(nonlinearF (br cells) a b).w ^^^ (br cells)[3]]
      pend := []
      port := (s.pend ++ s.port).drop 1 }

/-- R155: outside INIT the controller has no step: its turn changes nothing (log entry 12). -/
def Obligations.ControllerHasNoStepOutsideInit : Prop :=
  ∀ s : State, s.phase ≠ .init → controllerStep s = .next s

/-- R156, R158: from (INIT, 0), exactly 33 controller steps reach READY: after k < 33 of them the state is (INIT, k), and after 33
it is (READY, 33) with the registers and `x` of 32 init rounds and one warm-up round, everything but the datapath, ctrl and the
schedule unchanged. -/
def Obligations.ThirtyThreeControllerStepsReachReady : Prop :=
  ∀ (s : State) (d : Datapath) (rest : List Turn), s.phase = .init → s.round = 0 →
    s.cells = some d.cells → s.r1 = some d.r1 → s.r2 = some d.r2 → cellsLegal d.cells = true →
    s.sched = List.replicate 33 .controller ++ rest →
    (∀ k : Nat, k < 33 → ∃ t : State, Host.Core.run core k s = .next t ∧ t.phase = .init ∧ t.round.toNat = k) ∧
    Host.Core.run core 33 s = .next { s with
      cells := some (workRoundData (initRoundsFrom 32 d)).next.cells
      r1 := some (workRoundData (initRoundsFrom 32 d)).next.r1
      r2 := some (workRoundData (initRoundsFrom 32 d)).next.r2
      x := some (workRoundData (initRoundsFrom 32 d)).x, phase := .ready, round := 33, sched := rest }

/-- R157: the keystream depends on the key and IV alone: LOADs of one key and IV from any two states agree, and states that agree
on phase, round, cells, r1 and r2 stay so and emit the same words, whatever x, the ports and the schedule hold. -/
def Obligations.KeystreamDependsOnKeyAndIvOnly : Prop :=
  (∀ (key iv : Bytes16) (s s' : State), (s.phase = .uninit ∨ s.phase = .ready) → (s'.phase = .uninit ∨ s'.phase = .ready) →
    ∃ t t', exec (.load key iv) s = .next t ∧ exec (.load key iv) s' = .next t' ∧ SameGenerator t t') ∧
  (∀ s s' t : State, SameGenerator s s' → controllerStep s = .next t →
    ∃ t', controllerStep s' = .next t' ∧ SameGenerator t t') ∧
  (∀ s s' t : State, SameGenerator s s' → s.phase = .ready → s.resp.length ≠ Config.respDepth →
    s'.resp.length ≠ Config.respDepth → exec .gen s = .next t →
    ∃ t' z, exec .gen s' = .next t' ∧ SameGenerator t t' ∧ t.resp = s.resp ++ [z] ∧ t'.resp = s'.resp ++ [z])

-- The host commands (44_host_commands.md)

/-- R181: LOAD is held in INIT, and discarded in FAULT. -/
def Obligations.LoadHeldInInitDiscardedInFault : Prop :=
  ∀ (key iv : Bytes16) (s : State),
    (s.phase = .init → exec (.load key iv) s = .next s) ∧
    (s.phase = .fault → exec (.load key iv) s = .next { s with pend := [], port := (s.pend ++ s.port).drop 9 })

/-- R182, R214: GEN outside a READY with room: held, NOT_READY with nothing but phase and cause written, or discarded. -/
def Obligations.GenHeldFaultedOrDiscarded : Prop :=
  ∀ s : State,
    (s.phase = .ready → s.resp.length = Config.respDepth → exec .gen s = .next s) ∧
    (s.phase = .init → exec .gen s = .next s) ∧
    (s.phase = .uninit → exec .gen s =
      .next { s with phase := .fault, cause := .notReady, pend := [], port := (s.pend ++ s.port).drop 1 }) ∧
    (s.phase = .fault → exec .gen s = .next { s with pend := [], port := (s.pend ++ s.port).drop 1 })

/-- R183 (STATUS completes): in every phase, with room in the FIFO, STATUS emits the status word and changes nothing but `resp`
(and the port it came by); held while the FIFO is full. -/
def Obligations.StatusEmitsStatusWord : Prop :=
  ∀ s : State,
    (s.resp.length ≠ Config.respDepth → exec .status s = .next { s with
      resp := s.resp ++ [((causeCode s.cause).setWidth 32 <<< 16) ||| (s.round.setWidth 32 <<< 8)
        ||| (phaseCode s.phase).setWidth 32]
      pend := []
      port := (s.pend ++ s.port).drop 1 }) ∧
    (s.resp.length = Config.respDepth → exec .status s = .next s)

/-- R183, R249, U7: a STATUS that follows a LOAD after k controller steps reports (INIT, k) for k up to 32 and (READY, 33) for k = 33: from every
state in UNINIT or READY with idle ports, on the schedule LOAD, k controller steps, STATUS. The registers are those of the
LOAD's key and IV and k rounds, so R183's STATUS changed none of them. -/
def Obligations.StatusAfterLoadAdmitsEveryRound : Prop :=
  ∀ (s : State) (host : Nat) (key iv : Bytes16) (k : Nat) (rest : List Turn), k ≤ 33 →
    StateInv s → (s.phase = .uninit ∨ s.phase = .ready) → s.pend = [] → s.port = [] → s.resp = [] →
    (s.owner = none ∨ s.owner = some host) →
    s.sched = afterLoadTurns host key iv k ++ rest →
    ∃ t : State, Host.Core.run core (afterLoadTurns host key iv k).length s = .next t ∧
      t.resp = [if k ≤ 32 then BitVec.ofNat 32 (256 * k + 1) else 0x00002102] ∧
      t.phase = (if k ≤ 32 then .init else .ready) ∧ t.round.toNat = k ∧ t.cause = .none ∧
      t.cells = some (afterLoadRounds k key iv).cells ∧ t.r1 = some (afterLoadRounds k key iv).r1 ∧
      t.r2 = some (afterLoadRounds k key iv).r2 ∧
      (k = 0 → t.x = s.x) ∧ (∀ j, k = j + 1 → t.x = some (br (afterLoadRounds j key iv).cells)) ∧
      t.delivered = s.delivered ∧ t.pend = [] ∧ t.port = [] ∧ t.owner = some host ∧ t.sched = rest

/-- R184, R211: the acceptance of an illegal header: ILLEGAL_COMMAND in every phase but FAULT (never held, not even in INIT), and
discarded in FAULT. -/
def Obligations.IllegalHeaderFaultsOrIsDiscarded : Prop :=
  ∀ (s : State) (h : Word) (ws : List Word) (rest : List Turn),
    s.sched = .accept :: rest → decode (s.pend ++ s.port) = .illegal h ws →
    (s.phase ≠ .fault → step s =
      .next { s with phase := .fault, cause := .illegalCommand, pend := [], port := ws, sched := rest }) ∧
    (s.phase = .fault → step s = .next { s with pend := [], port := ws, sched := rest })

/-- R185, R216: a held frame stays at the head of the command port, and nothing but the schedule moves on. The FIFO-full hold of a
GEN comes after the phase's decision. -/
def Obligations.HeldFrameStays : Prop :=
  ∀ (s : State) (i : Instr) (ws : List Word) (rest : List Turn),
    s.sched = .accept :: rest → decode (s.pend ++ s.port) = .frame i ws →
    ((i ≠ .status ∧ s.phase = .init) ∨ (i = .gen ∧ s.phase = .ready ∧ s.resp.length = Config.respDepth) ∨
      (i = .status ∧ s.resp.length = Config.respDepth)) →
    step s = .next { s with sched := rest }

/-- R186: a pop removes the head word of `resp` and delivers it; with an empty FIFO the turn changes nothing (log entry 12). -/
def Obligations.PopDeliversOldestWord : Prop :=
  ∀ (s : State) (rest : List Turn), s.sched = .pop :: rest →
    (∀ v vs, s.resp = v :: vs →
      step s = .next { s with resp := vs, delivered := s.delivered ++ [v], sched := rest }) ∧
    (s.resp = [] → step s = .next { s with sched := rest })

/-- R186, R57, R59: over any step but a reset, the words delivered and waiting only grow at the end, by at most one word, and only
when a GEN or STATUS is accepted; only a pop delivers. -/
def Obligations.ResponsesComeOutInOrder : Prop :=
  ∀ s t : State, step s = .next t → (nextTurn s).1 ≠ .reset →
    ∃ ws : List Word, t.delivered ++ t.resp = s.delivered ++ s.resp ++ ws ∧ ws.length ≤ 1 ∧
      (ws ≠ [] → (nextTurn s).1 = .accept ∧
        ∃ rest, decode (s.pend ++ s.port) = .frame .gen rest ∨ decode (s.pend ++ s.port) = .frame .status rest) ∧
      ((nextTurn s).1 ≠ .pop → t.delivered = s.delivered)

/-- R59, R180, R70: over any step but a reset, the command words are taken from the front in the order they were sent, at most one
frame in a step, and only by an acceptance step; and a word of the port's one host goes to the end of the command port, in every
phase, and nothing else of CORE changes. THE MODEL'S CHOICE: that a word joins the port however many wait there already, since the
spec gives the port no depth and the model's list is unbounded (log entry 4); and the owner field (log entry 7). -/
def Obligations.CommandWordsTakenInOrder : Prop :=
  (∀ (s : State) (host : Nat) (w : Word) (rest : List Turn), s.sched = .send host w :: rest →
    (s.owner = none ∨ s.owner = some host) →
    step s = .next { s with port := s.port ++ [w], owner := some host, sched := rest }) ∧
  (∀ s t : State, step s = .next t → (nextTurn s).1 ≠ .reset →
    (∃ host w, (nextTurn s).1 = .send host w ∧ t.pend ++ t.port = s.pend ++ s.port ++ [w]) ∨
    (t.pend ++ t.port = s.pend ++ s.port) ∨
    ((nextTurn s).1 = .accept ∧
      ((∃ i rest, decode (s.pend ++ s.port) = .frame i rest ∧ t.pend ++ t.port = rest) ∨
        (∃ h rest, decode (s.pend ++ s.port) = .illegal h rest ∧ t.pend ++ t.port = rest))))

/-- R77, R30: the words of an incomplete frame wait in the frame assembler, at most eight of them, and nothing else happens. -/
def Obligations.IncompleteFrameWaitsInPend : Prop :=
  ∀ (s : State) (rest : List Turn), s.sched = .accept :: rest → decode (s.pend ++ s.port) = .incomplete →
    step s = .next { s with pend := s.pend ++ s.port, port := [], sched := rest } ∧ (s.pend ++ s.port).length ≤ 8

-- Ordering (20_memory.md)

/-- R60: during INIT, host steps other than an illegal header's acceptance leave the controller and the datapath alone, and a
controller step depends on nothing else. -/
def Obligations.HostStepsKeepDatapathInInit : Prop :=
  (∀ s t : State, s.phase = .init → step s = .next t → (nextTurn s).1 ≠ .controller → (nextTurn s).1 ≠ .reset →
    (∀ h rest, decode (s.pend ++ s.port) ≠ .illegal h rest) → SameCore s t) ∧
  (∀ s s' t : State, SameCore s s' → controllerStep s = .next t →
    ∃ t', controllerStep s' = .next t' ∧ SameCore t t')

/-- R36, R65: a step of one instance leaves every other instance as it was. -/
def Obligations.OtherInstancesUnchanged : Prop :=
  ∀ (p q : Platform) (i : Fin p.cores.length), platformStep p i = .next q →
    q.cores.length = p.cores.length ∧ (∀ j : Nat, j ≠ i.val → q.cores[j]? = p.cores[j]?) ∧
    ∃ t, step p.cores[i] = .next t ∧ q.cores[i.val]? = some t

-- The host procedures (30_encoding.md R80; 45_keystream_consumer.md)

/-- R80, R203: a word serializes to its four bytes, most significant first, and parses back. -/
def Obligations.SerializationRoundTrips : Prop :=
  ∀ z : Word, serWord z = [z.extractLsb' 24 8, z.extractLsb' 16 8, z.extractLsb' 8 8, z.extractLsb' 0 8] ∧
    parseWord (serWord z) = some z

/-- R202: XOR_KEYSTREAM with one key and IV is its own inverse. -/
def Obligations.XorKeystreamIsInvolution : Prop :=
  ∀ (key iv : Bytes16) (data : List Byte), xorKeystream key iv (xorKeystream key iv data) = data

/-- R200, R201: the word counts are the ceilings, and the results have the requested lengths. -/
def Obligations.KeystreamLengths : Prop :=
  (∀ len : Nat, len ≤ 4 * wordsForBytes len ∧ 4 * wordsForBytes len < len + 4) ∧
  (∀ bits : Nat, bits ≤ 32 * wordsForBits bits ∧ 32 * wordsForBits bits < bits + 32) ∧
  (∀ (key iv : Bytes16) (n : Nat), (keystream key iv n).length = n) ∧
  (∀ (key iv : Bytes16) (data : List Byte), (xorKeystream key iv data).length = data.length) ∧
  (∀ (key iv : Bytes16) (bits : Nat), (keystreamBits key iv bits).length = bits)

/-- R200, R201, R154: word j of the keystream is the word of the (j+1)-th GEN round; byte i of XOR_KEYSTREAM's result is the data's byte
XOR the byte of word i / 4 in place i mod 4, most significant first; and bit i of a bit request is bit 31 - i mod 32 of
word i / 32. -/
def Obligations.KeystreamContents : Prop :=
  ∀ key iv : Bytes16,
    let word : Nat → Word := fun j => roundZ (workRoundData (genRoundsFrom j (constructed key iv)))
    (∀ n j : Nat, j < n → (keystream key iv n)[j]? = some (word j)) ∧
    (∀ (data : List Byte) (i : Nat) (d : Byte), data[i]? = some d →
      (xorKeystream key iv data)[i]? = some (d ^^^ (word (i / 4)).extractLsb' (24 - 8 * (i % 4)) 8)) ∧
    (∀ bits i : Nat, i < bits → (keystreamBits key iv bits)[i]? = some ((word (i / 32)).getLsbD (31 - i % 32)))

/-- R81, R249: WAIT_READY on the machine, in INIT with idle ports, with any number of controller steps in each turn of the loop. While the
rounds before a turn come to less than 33 the host issues that turn's STATUS. Its response reports the rounds so far; the loop goes
round while that is INIT and is left at READY. Outside INIT one STATUS is issued and the loop is left at once. How the loop
is run is the model's (log entry 23). -/
def Obligations.WaitReadyLoopsWhileInit : Prop :=
  (∀ (s : State) (host : Nat) (ns : List Nat), StateInv s → s.phase = .init → s.pend = [] → s.port = [] → s.resp = [] →
    (s.owner = none ∨ s.owner = some host) →
    (∀ i : Nat, i < ns.length → s.round.toNat + (ns.take i).sum < 33) →
    let r := waitReady host (ns.map pollMoves) s
    r.responses = (List.range ns.length).map (fun i =>
      if s.round.toNat + (ns.take (i + 1)).sum < 33 then BitVec.ofNat 32 (256 * (s.round.toNat + (ns.take (i + 1)).sum) + 1)
      else 0x00002102) ∧
    (s.round.toNat + ns.sum < 33 → r.ending = .again ∧ r.state.phase = .init ∧ r.state.round.toNat = s.round.toNat + ns.sum) ∧
    (33 ≤ s.round.toNat + ns.sum → r.ending = .left ∧ r.state.phase = .ready ∧ r.state.round = 33)) ∧
  (∀ (s : State) (host : Nat) (turns : List (List Turn)), s.phase ≠ .init → s.pend = [] → s.port = [] → s.resp = [] →
    (s.owner = none ∨ s.owner = some host) →
    waitReady host (pollMoves 0 :: turns) s =
      { state := { s with delivered := s.delivered ++ [statusWord s], owner := some host, sched := [] },
        responses := [statusWord s], ending := .left })

/-- R200, R157: the machine under XOR_KEYSTREAM's frames, from UNINIT or READY with idle ports, delivers exactly the keystream of
the key and IV, `ceil(len / 4)` words of it, and ends in READY with its registers that many GEN rounds on. THE MODEL'S CHOICE: the
one interleaving in which all 33 controller steps come before the first GEN is sent (log entry 24). -/
def Obligations.XorKeystreamRunDeliversKeystream : Prop :=
  ∀ (s : State) (host : Nat) (key iv : Bytes16) (len : Nat) (rest : List Turn),
    (s.phase = .uninit ∨ s.phase = .ready) → s.pend = [] → s.port = [] → s.resp = [] →
    (s.owner = none ∨ s.owner = some host) → s.sched = xorTurns host key iv len ++ rest →
    ∃ t : State, Host.Core.run core (xorTurns host key iv len).length s = .next t ∧
      t.delivered = s.delivered ++ keystream key iv (wordsForBytes len) ∧
      t.phase = .ready ∧ t.round = 33 ∧ t.cause = s.cause ∧ t.resp = [] ∧ t.pend = [] ∧ t.port = [] ∧ t.sched = rest ∧
      t.cells = some (genRoundsFrom (wordsForBytes len) (constructed key iv)).cells ∧
      t.r1 = some (genRoundsFrom (wordsForBytes len) (constructed key iv)).r1 ∧
      t.r2 = some (genRoundsFrom (wordsForBytes len) (constructed key iv)).r2

/-- R200, R157, R213: XOR_KEYSTREAM on the machine. From UNINIT or READY with idle ports, under EVERY interleaving of the frames' acceptances, the
controller's steps and the pops, a completed procedure gives `xorKeystream` of the data; it does complete with any number of
controller steps before each acceptance, 33 or more of them before the first GEN's; and from FAULT it never completes, under any
interleaving, unless the data is empty. The form of the procedure on the machine is the model's (log entry 25). -/
def Obligations.RunXorKeystreamGivesKeystream : Prop :=
  (∀ (s : State) (host : Nat) (key iv : Bytes16) (data result : List Byte) (loadMoves : List Turn) (moves : Nat → List Turn),
    (s.phase = .uninit ∨ s.phase = .ready) → s.pend = [] → s.port = [] → s.resp = [] →
    (s.owner = none ∨ s.owner = some host) → noInput loadMoves = true →
    runXorKeystream host key iv data loadMoves moves s = some result → result = xorKeystream key iv data) ∧
  (∀ (s : State) (host : Nat) (key iv : Bytes16) (data : List Byte) (n : Nat) (m : Nat → Nat),
    (s.phase = .uninit ∨ s.phase = .ready) → s.pend = [] → s.port = [] → s.resp = [] →
    (s.owner = none ∨ s.owner = some host) → 33 ≤ n + m 0 →
    runXorKeystream host key iv data (.accept :: List.replicate n .controller) (fun j => pollMoves (m j)) s =
      some (xorKeystream key iv data)) ∧
  (∀ (s : State) (host : Nat) (key iv : Bytes16) (data : List Byte) (loadMoves : List Turn) (moves : Nat → List Turn),
    s.phase = .fault → s.pend = [] → s.port = [] → s.resp = [] → (s.owner = none ∨ s.owner = some host) →
    noInput loadMoves = true → (∀ j : Nat, noInput (moves j) = true) → data ≠ [] →
    (popKeystream host key iv data.length loadMoves moves s).ending = .unanswered ∧
    runXorKeystream host key iv data loadMoves moves s = none)

-- Faults (60_exceptions.md)

/-- R212: entering FAULT is precise: it happens only at the acceptance of a frame of one word, which is removed; phase and cause
are written and every other piece of CORE's state is unchanged; and then the controller has no step. -/
def Obligations.FaultEntryIsPrecise : Prop :=
  ∀ s t : State, step s = .next t → s.phase ≠ .fault → t.phase = .fault →
    (nextTurn s).1 = .accept ∧ (t.cause = .illegalCommand ∨ t.cause = .notReady) ∧
    t.round = s.round ∧ t.cells = s.cells ∧ t.r1 = s.r1 ∧ t.r2 = s.r2 ∧ t.x = s.x ∧ t.resp = s.resp ∧
    t.delivered = s.delivered ∧ t.pend = [] ∧ (∃ h, s.pend ++ s.port = h :: t.port) ∧ controllerStep t = .next t

/-- R213, R218: FAULT is sticky: any step but a reset keeps the phase, the first cause and the whole datapath, and only an accepted
STATUS emits a word, the status word. -/
def Obligations.FaultIsSticky : Prop :=
  ∀ s t : State, s.phase = .fault → step s = .next t → (nextTurn s).1 ≠ .reset →
    SameCore s t ∧
    (t.delivered ++ t.resp = s.delivered ++ s.resp ∨
      ((nextTurn s).1 = .accept ∧ (∃ rest, decode (s.pend ++ s.port) = .frame .status rest) ∧
        t.delivered = s.delivered ∧ t.resp = s.resp ++ [statusWord s]))

/-- R245, R221: a word from a second host stream is refused. -/
def Obligations.SecondHostStreamRefused : Prop :=
  ∀ (s : State) (owner host : Nat) (w : Word) (rest : List Turn), s.sched = .send host w :: rest →
    s.owner = some owner → owner ≠ host → step s = .refused .interleavedHosts

/-- R35, D25: a GEN round that would read unwritten registers faults, and one that would read a 0 cell is refused. No state a run
reaches meets these premises (`EveryStepCompletes`). -/
def Obligations.UnwrittenAndZeroCellsStop : Prop :=
  ∀ s : State, s.phase = .ready → s.resp.length ≠ Config.respDepth →
    (s.cells = none → exec .gen s = .fault .unwrittenCells) ∧
    (s.cells ≠ none → s.r1 = none → exec .gen s = .fault .unwrittenR1) ∧
    (s.cells ≠ none → s.r1 ≠ none → s.r2 = none → exec .gen s = .fault .unwrittenR2) ∧
    (∀ cells, s.cells = some cells → s.r1 ≠ none → s.r2 ≠ none → (∃ i : Fin 16, cells[i] = 0) →
      exec .gen s = .refused .illegalCell)

-- The step, the invariant, the end of a run

/-- R180: an acceptance step with a command at the head of the command port is exec of that command, on the state with the move
taken off the schedule; so too the step CORE takes by itself outside INIT when no move is planned. -/
def Obligations.StepRunsDecodedFrame : Prop :=
  ∀ (s : State) (i : Instr) (ws : List Word), decode (s.pend ++ s.port) = .frame i ws →
    (∀ rest, s.sched = .accept :: rest → step s = exec i { s with sched := rest }) ∧
    (s.sched = [] → s.phase ≠ .init → step s = exec i s)

/-- An instruction placed by `withFetchWord` is the one the next step runs, from any state (log entry 14). -/
def Obligations.PlacedInstructionRunsNext : Prop :=
  ∀ (s : State) (nbits w : Nat) (i : Instr), decodeTableWord nbits w = some i →
    step (s.withFetchWord nbits w) = exec i { s with pend := [], port := tableWords nbits w ++ s.port }

/-- R22, R26..R30, R34: the invariant holds at reset. -/
def Obligations.InvariantHoldsAtReset : Prop := StateInv State.reset

/-- R22, R26..R30: every step that answers a next state keeps the invariant: phase, round and cause go together; written cells are
in [1, P]; the FIFO is within its depth; the frame assembler holds nothing or the beginning of a LOAD. -/
def Obligations.InvariantKeptByEveryStep : Prop :=
  ∀ s t : State, StateInv s → step s = .next t → StateInv t

/-- R215, R35: from every state that meets the invariant, every step completes, unless it is a word from a second host stream: no
datapath operation stops, no unwritten register is read, no 0 cell is met. -/
def Obligations.EveryStepCompletes : Prop :=
  ∀ s : State, StateInv s → OneHost s → ∃ t, step s = .next t

/-- R251: a run that has ended is a good or a bad end and not both. THE MODEL'S CHOICE: what `Ended` asks where R251 is open (log entry 22);
and that any step from such a state changes nothing but the schedule, since a planned move that its agent cannot make
passes (log entry 12; 60_exceptions.md R225), and with none planned CORE tries an acceptance (log entry 3). -/
def Obligations.EndedRunStaysEnded : Prop :=
  ∀ s : State, StateInv s → Ended s →
    (GoodEnd s ∨ BadEnd s) ∧ ¬ (GoodEnd s ∧ BadEnd s) ∧ step s = .next { s with sched := s.sched.tail }
end

