-- ==== Sys2Proof/Laws/State.lean ====
section
/-! SUPPORT. What each update of the state leaves in each field, so that no proof unfolds a record update. -/

namespace Sys2Proof.Machine

@[simp] theorem retire_cells (n : Nat) (s : State) : (retire n s).cells = s.cells := rfl
@[simp] theorem retire_r1 (n : Nat) (s : State) : (retire n s).r1 = s.r1 := rfl
@[simp] theorem retire_r2 (n : Nat) (s : State) : (retire n s).r2 = s.r2 := rfl
@[simp] theorem retire_x (n : Nat) (s : State) : (retire n s).x = s.x := rfl
@[simp] theorem retire_phase (n : Nat) (s : State) : (retire n s).phase = s.phase := rfl
@[simp] theorem retire_round (n : Nat) (s : State) : (retire n s).round = s.round := rfl
@[simp] theorem retire_cause (n : Nat) (s : State) : (retire n s).cause = s.cause := rfl
@[simp] theorem retire_resp (n : Nat) (s : State) : (retire n s).resp = s.resp := rfl
@[simp] theorem retire_pend (n : Nat) (s : State) : (retire n s).pend = [] := rfl
@[simp] theorem retire_port (n : Nat) (s : State) : (retire n s).port = (s.pend ++ s.port).drop n := rfl
@[simp] theorem retire_delivered (n : Nat) (s : State) : (retire n s).delivered = s.delivered := rfl
@[simp] theorem retire_owner (n : Nat) (s : State) : (retire n s).owner = s.owner := rfl
@[simp] theorem retire_sched (n : Nat) (s : State) : (retire n s).sched = s.sched := rfl

@[simp] theorem emit_cells (v : Word) (s : State) : (emit v s).cells = s.cells := rfl
@[simp] theorem emit_r1 (v : Word) (s : State) : (emit v s).r1 = s.r1 := rfl
@[simp] theorem emit_r2 (v : Word) (s : State) : (emit v s).r2 = s.r2 := rfl
@[simp] theorem emit_x (v : Word) (s : State) : (emit v s).x = s.x := rfl
@[simp] theorem emit_phase (v : Word) (s : State) : (emit v s).phase = s.phase := rfl
@[simp] theorem emit_round (v : Word) (s : State) : (emit v s).round = s.round := rfl
@[simp] theorem emit_cause (v : Word) (s : State) : (emit v s).cause = s.cause := rfl
@[simp] theorem emit_resp (v : Word) (s : State) : (emit v s).resp = s.resp ++ [v] := rfl
@[simp] theorem emit_pend (v : Word) (s : State) : (emit v s).pend = s.pend := rfl
@[simp] theorem emit_port (v : Word) (s : State) : (emit v s).port = s.port := rfl
@[simp] theorem emit_delivered (v : Word) (s : State) : (emit v s).delivered = s.delivered := rfl
@[simp] theorem emit_owner (v : Word) (s : State) : (emit v s).owner = s.owner := rfl
@[simp] theorem emit_sched (v : Word) (s : State) : (emit v s).sched = s.sched := rfl

@[simp] theorem raiseFault_cells (k : Cause) (n : Nat) (s : State) : (raiseFault k n s).cells = s.cells := rfl
@[simp] theorem raiseFault_r1 (k : Cause) (n : Nat) (s : State) : (raiseFault k n s).r1 = s.r1 := rfl
@[simp] theorem raiseFault_r2 (k : Cause) (n : Nat) (s : State) : (raiseFault k n s).r2 = s.r2 := rfl
@[simp] theorem raiseFault_x (k : Cause) (n : Nat) (s : State) : (raiseFault k n s).x = s.x := rfl
@[simp] theorem raiseFault_phase (k : Cause) (n : Nat) (s : State) : (raiseFault k n s).phase = .fault := rfl
@[simp] theorem raiseFault_round (k : Cause) (n : Nat) (s : State) : (raiseFault k n s).round = s.round := rfl
@[simp] theorem raiseFault_cause (k : Cause) (n : Nat) (s : State) : (raiseFault k n s).cause = k := rfl
@[simp] theorem raiseFault_resp (k : Cause) (n : Nat) (s : State) : (raiseFault k n s).resp = s.resp := rfl
@[simp] theorem raiseFault_pend (k : Cause) (n : Nat) (s : State) : (raiseFault k n s).pend = [] := rfl
@[simp] theorem raiseFault_port (k : Cause) (n : Nat) (s : State) : (raiseFault k n s).port = (s.pend ++ s.port).drop n := rfl
@[simp] theorem raiseFault_delivered (k : Cause) (n : Nat) (s : State) : (raiseFault k n s).delivered = s.delivered := rfl
@[simp] theorem raiseFault_owner (k : Cause) (n : Nat) (s : State) : (raiseFault k n s).owner = s.owner := rfl
@[simp] theorem raiseFault_sched (k : Cause) (n : Nat) (s : State) : (raiseFault k n s).sched = s.sched := rfl

@[simp] theorem writeDatapath_cells (d : Datapath) (x : Option XBuf) (s : State) : (writeDatapath d x s).cells = some d.cells := rfl
@[simp] theorem writeDatapath_r1 (d : Datapath) (x : Option XBuf) (s : State) : (writeDatapath d x s).r1 = some d.r1 := rfl
@[simp] theorem writeDatapath_r2 (d : Datapath) (x : Option XBuf) (s : State) : (writeDatapath d x s).r2 = some d.r2 := rfl
@[simp] theorem writeDatapath_x (d : Datapath) (x : Option XBuf) (s : State) : (writeDatapath d x s).x = x := rfl
@[simp] theorem writeDatapath_phase (d : Datapath) (x : Option XBuf) (s : State) : (writeDatapath d x s).phase = s.phase := rfl
@[simp] theorem writeDatapath_round (d : Datapath) (x : Option XBuf) (s : State) : (writeDatapath d x s).round = s.round := rfl
@[simp] theorem writeDatapath_cause (d : Datapath) (x : Option XBuf) (s : State) : (writeDatapath d x s).cause = s.cause := rfl
@[simp] theorem writeDatapath_resp (d : Datapath) (x : Option XBuf) (s : State) : (writeDatapath d x s).resp = s.resp := rfl
@[simp] theorem writeDatapath_pend (d : Datapath) (x : Option XBuf) (s : State) : (writeDatapath d x s).pend = s.pend := rfl
@[simp] theorem writeDatapath_port (d : Datapath) (x : Option XBuf) (s : State) : (writeDatapath d x s).port = s.port := rfl
@[simp] theorem writeDatapath_delivered (d : Datapath) (x : Option XBuf) (s : State) : (writeDatapath d x s).delivered = s.delivered := rfl
@[simp] theorem writeDatapath_owner (d : Datapath) (x : Option XBuf) (s : State) : (writeDatapath d x s).owner = s.owner := rfl
@[simp] theorem writeDatapath_sched (d : Datapath) (x : Option XBuf) (s : State) : (writeDatapath d x s).sched = s.sched := rfl

@[simp] theorem keyLoad_cells (key iv : Bytes16) (s : State) : (keyLoad key iv s).cells = some (keyCells key iv) := rfl
@[simp] theorem keyLoad_r1 (key iv : Bytes16) (s : State) : (keyLoad key iv s).r1 = some 0 := rfl
@[simp] theorem keyLoad_r2 (key iv : Bytes16) (s : State) : (keyLoad key iv s).r2 = some 0 := rfl
@[simp] theorem keyLoad_x (key iv : Bytes16) (s : State) : (keyLoad key iv s).x = s.x := rfl
@[simp] theorem keyLoad_phase (key iv : Bytes16) (s : State) : (keyLoad key iv s).phase = .init := rfl
@[simp] theorem keyLoad_round (key iv : Bytes16) (s : State) : (keyLoad key iv s).round = 0 := rfl
@[simp] theorem keyLoad_cause (key iv : Bytes16) (s : State) : (keyLoad key iv s).cause = s.cause := rfl
@[simp] theorem keyLoad_resp (key iv : Bytes16) (s : State) : (keyLoad key iv s).resp = s.resp := rfl
@[simp] theorem keyLoad_pend (key iv : Bytes16) (s : State) : (keyLoad key iv s).pend = s.pend := rfl
@[simp] theorem keyLoad_port (key iv : Bytes16) (s : State) : (keyLoad key iv s).port = s.port := rfl
@[simp] theorem keyLoad_delivered (key iv : Bytes16) (s : State) : (keyLoad key iv s).delivered = s.delivered := rfl
@[simp] theorem keyLoad_owner (key iv : Bytes16) (s : State) : (keyLoad key iv s).owner = s.owner := rfl
@[simp] theorem keyLoad_sched (key iv : Bytes16) (s : State) : (keyLoad key iv s).sched = s.sched := rfl

@[simp] theorem resetTurn_cells (s : State) : (resetTurn s).cells = none := rfl
@[simp] theorem resetTurn_r1 (s : State) : (resetTurn s).r1 = none := rfl
@[simp] theorem resetTurn_r2 (s : State) : (resetTurn s).r2 = none := rfl
@[simp] theorem resetTurn_x (s : State) : (resetTurn s).x = none := rfl
@[simp] theorem resetTurn_phase (s : State) : (resetTurn s).phase = .uninit := rfl
@[simp] theorem resetTurn_round (s : State) : (resetTurn s).round = 0 := rfl
@[simp] theorem resetTurn_cause (s : State) : (resetTurn s).cause = .none := rfl
@[simp] theorem resetTurn_resp (s : State) : (resetTurn s).resp = [] := rfl
@[simp] theorem resetTurn_pend (s : State) : (resetTurn s).pend = [] := rfl
@[simp] theorem resetTurn_port (s : State) : (resetTurn s).port = [] := rfl
@[simp] theorem resetTurn_delivered (s : State) : (resetTurn s).delivered = s.delivered := rfl
@[simp] theorem resetTurn_owner (s : State) : (resetTurn s).owner = s.owner := rfl
@[simp] theorem resetTurn_sched (s : State) : (resetTurn s).sched = s.sched := rfl

@[simp] theorem popTurn_cells (s : State) : (popTurn s).cells = s.cells := by
  unfold popTurn; split <;> rfl
@[simp] theorem popTurn_r1 (s : State) : (popTurn s).r1 = s.r1 := by
  unfold popTurn; split <;> rfl
@[simp] theorem popTurn_r2 (s : State) : (popTurn s).r2 = s.r2 := by
  unfold popTurn; split <;> rfl
@[simp] theorem popTurn_x (s : State) : (popTurn s).x = s.x := by
  unfold popTurn; split <;> rfl
@[simp] theorem popTurn_phase (s : State) : (popTurn s).phase = s.phase := by
  unfold popTurn; split <;> rfl
@[simp] theorem popTurn_round (s : State) : (popTurn s).round = s.round := by
  unfold popTurn; split <;> rfl
@[simp] theorem popTurn_cause (s : State) : (popTurn s).cause = s.cause := by
  unfold popTurn; split <;> rfl
@[simp] theorem popTurn_pend (s : State) : (popTurn s).pend = s.pend := by
  unfold popTurn; split <;> rfl
@[simp] theorem popTurn_port (s : State) : (popTurn s).port = s.port := by
  unfold popTurn; split <;> rfl
@[simp] theorem popTurn_owner (s : State) : (popTurn s).owner = s.owner := by
  unfold popTurn; split <;> rfl
@[simp] theorem popTurn_sched (s : State) : (popTurn s).sched = s.sched := by
  unfold popTurn; split <;> rfl

/-- A pop moves a word from the FIFO to the host and loses none (44_host_commands.md R186). -/
@[simp] theorem popTurn_words (s : State) : (popTurn s).delivered ++ (popTurn s).resp = s.delivered ++ s.resp := by
  unfold popTurn; split <;> simp_all

theorem popTurn_of_nil {s : State} (h : s.resp = []) : popTurn s = s := by
  simp [popTurn, h]

theorem popTurn_of_cons {s : State} {v : Word} {rest : List Word} (h : s.resp = v :: rest) :
    popTurn s = { s with resp := rest, delivered := s.delivered ++ [v] } := by
  simp [popTurn, h]

end Sys2Proof.Machine
end

