-- ==== Sys2Proof/Laws/Ops.lean ====
section
/-! SUPPORT. What each shared operation can do, said once: reading the datapath, the controller's step, and the acceptance of a
command. -/

namespace Sys2Proof.Machine

/-- A legal register file is one with no 0 cell. -/
theorem cellsLegal_iff (cells : Cells) : cellsLegal cells = true ↔ ∀ i : Fin 16, cells[i] ≠ 0 := by
  simp [cellsLegal]

/-- A round runs on the values of written, legal registers. -/
theorem withDatapath_of_legal {s : State} {d : Datapath} (k : Datapath → StepOutcome)
    (hc : s.cells = some d.cells) (h1 : s.r1 = some d.r1) (h2 : s.r2 = some d.r2) (hl : cellsLegal d.cells = true) :
    withDatapath s k = k d := by
  simp only [withDatapath, hc, h1, h2]
  exact if_pos hl

/-- If reading the datapath answers a next state, then the registers are written and legal, and the round gave that state. -/
theorem withDatapath_next {s t : State} {k : Datapath → StepOutcome} (h : withDatapath s k = .next t) :
    ∃ d : Datapath, s.cells = some d.cells ∧ s.r1 = some d.r1 ∧ s.r2 = some d.r2 ∧ cellsLegal d.cells = true ∧ k d = .next t := by
  unfold withDatapath at h
  split at h
  · cases h
  · cases h
  · cases h
  · next cells a b hc h1 h2 =>
    split at h
    · next hl => exact ⟨⟨cells, a, b⟩, hc, h1, h2, hl, h⟩
    · cases h

/-- Where the registers are unwritten or a cell is 0, no round runs. -/
theorem withDatapath_of_unwritten {s : State} (k : Datapath → StepOutcome) (h : s.cells = none) :
    withDatapath s k = .fault .unwrittenCells := by
  simp [withDatapath, h]

theorem withDatapath_of_zero_cell {s : State} {cells : Cells} {a b : Word} (k : Datapath → StepOutcome)
    (hc : s.cells = some cells) (h1 : s.r1 = some a) (h2 : s.r2 = some b) (hz : cellsLegal cells = false) :
    withDatapath s k = .refused .illegalCell := by
  simp only [withDatapath, hc, h1, h2]
  simp [hz]

/-- Everything the controller's step can do when it answers a next state. -/
theorem controllerStep_next {s t : State} (h : controllerStep s = .next t) :
    (s.phase ≠ .init ∧ t = s) ∨
    (s.phase = .init ∧ ∃ d : Datapath, s.cells = some d.cells ∧ s.r1 = some d.r1 ∧ s.r2 = some d.r2 ∧ cellsLegal d.cells = true ∧
      ((s.round.toNat < 32 ∧
          t = writeDatapath (initRoundData d).next (some (initRoundData d).x) { s with round := s.round + 1 }) ∨
        (s.round.toNat = 32 ∧
          t = writeDatapath (workRoundData d).next (some (workRoundData d).x) { s with phase := .ready, round := 33 }))) := by
  unfold controllerStep at h
  split at h
  · next hp =>
    right
    split at h
    · next hk =>
      obtain ⟨d, hc, h1, h2, hl, hd⟩ := withDatapath_next h
      exact ⟨hp, d, hc, h1, h2, hl, .inl ⟨hk, by simpa using hd.symm⟩⟩
    · split at h
      · next hk =>
        obtain ⟨d, hc, h1, h2, hl, hd⟩ := withDatapath_next h
        exact ⟨hp, d, hc, h1, h2, hl, .inr ⟨hk, by simpa using hd.symm⟩⟩
      · cases h
  all_goals
    next hp => exact .inl ⟨by simp [hp], by simpa using h.symm⟩

/-- Everything the acceptance of a GEN can do when it answers a next state. -/
theorem execGen_next {s t : State} (h : execGen s = .next t) :
    (s.phase = .ready ∧ s.resp.length ≠ Config.respDepth ∧ ∃ d : Datapath, s.cells = some d.cells ∧ s.r1 = some d.r1 ∧ s.r2 = some d.r2 ∧
      cellsLegal d.cells = true ∧
      t = emit (roundZ (workRoundData d)) (writeDatapath (workRoundData d).next (some (workRoundData d).x) (retire 1 s))) ∨
    ((s.phase = .init ∨ (s.phase = .ready ∧ s.resp.length = Config.respDepth)) ∧ t = s) ∨
    (s.phase = .uninit ∧ t = raiseFault .notReady 1 s) ∨
    (s.phase = .fault ∧ t = retire 1 s) := by
  unfold execGen at h
  split at h
  · next hp =>
    split at h
    · next hf => exact .inr (.inl ⟨.inr ⟨hp, hf⟩, by simpa [holdFrame] using h.symm⟩)
    · next hf =>
      obtain ⟨d, hc, h1, h2, hl, hd⟩ := withDatapath_next h
      exact .inl ⟨hp, hf, d, hc, h1, h2, hl, by simpa using hd.symm⟩
  · next hp => exact .inr (.inl ⟨.inl hp, by simpa [holdFrame] using h.symm⟩)
  · next hp => exact .inr (.inr (.inl ⟨hp, by simpa using h.symm⟩))
  · next hp => exact .inr (.inr (.inr ⟨hp, by simpa [discardFrame] using h.symm⟩))

/-- Everything the acceptance of a LOAD can do. -/
theorem execLoad_next {key iv : Bytes16} {s t : State} (h : execLoad key iv s = .next t) :
    ((s.phase = .uninit ∨ s.phase = .ready) ∧ t = keyLoad key iv (retire 9 s)) ∨
    (s.phase = .init ∧ t = s) ∨
    (s.phase = .fault ∧ t = retire 9 s) := by
  unfold execLoad at h
  split at h
  · next hp => exact .inl ⟨.inl hp, by simpa using h.symm⟩
  · next hp => exact .inl ⟨.inr hp, by simpa using h.symm⟩
  · next hp => exact .inr (.inl ⟨hp, by simpa [holdFrame] using h.symm⟩)
  · next hp => exact .inr (.inr ⟨hp, by simpa [discardFrame] using h.symm⟩)

/-- Everything the acceptance of a STATUS can do. -/
theorem execStatus_next {s t : State} (h : execStatus s = .next t) :
    (s.resp.length = Config.respDepth ∧ t = s) ∨ (s.resp.length ≠ Config.respDepth ∧ t = emit (statusWord s) (retire 1 s)) := by
  unfold execStatus at h
  split at h
  · next hf => exact .inl ⟨hf, by simpa [holdFrame] using h.symm⟩
  · next hf => exact .inr ⟨hf, by simpa using h.symm⟩

/-- Everything the acceptance of an illegal header can do. -/
theorem illegalHeader_next {s t : State} (h : illegalHeader s = .next t) :
    (s.phase = .fault ∧ t = retire 1 s) ∨ (s.phase ≠ .fault ∧ t = raiseFault .illegalCommand 1 s) := by
  unfold illegalHeader at h
  split at h
  · next hp => exact .inl ⟨hp, by simpa [discardFrame] using h.symm⟩
  all_goals
    next hp => exact .inr ⟨by simp [hp], by simpa using h.symm⟩

end Sys2Proof.Machine
end

