-- ==== Sys2Proof/Laws/Step.lean ====
section
/-! SUPPORT. What one step can do, said once: which agent moves, and what its move can be. -/

namespace Sys2Proof.Machine

/-- Taking the next move off the schedule changes the schedule alone. -/
theorem nextTurn_state (s : State) : (nextTurn s).2 = { s with sched := s.sched.tail } := by
  unfold nextTurn
  split
  · next h => cases s; simp_all
  · next h => simp [h]

theorem nextTurn_of_cons {s : State} {t : Turn} {rest : List Turn} (h : s.sched = t :: rest) :
    nextTurn s = (t, { s with sched := rest }) := by
  simp [nextTurn, h]

/-- A planned move is the one the step makes. -/
theorem step_of_cons {s : State} {t : Turn} {rest : List Turn} (h : s.sched = t :: rest) :
    step s = takeTurn t { s with sched := rest } := by
  simp [step, nextTurn_of_cons h]

/-- With no move planned, CORE makes its own. -/
theorem step_of_nil {s : State} (h : s.sched = []) : step s = takeTurn (ownTurn s) s := by
  simp [step, nextTurn, h]

/-- Every step is one agent's move on the state with the move taken off the schedule. -/
theorem step_eq (s : State) : step s = takeTurn (nextTurn s).1 { s with sched := s.sched.tail } := by
  simp [step, nextTurn_state]

/-- A send that answers a next state. -/
theorem sendTurn_next {host : Nat} {w : Word} {s t : State} (h : sendTurn host w s = .next t) :
    (s.owner = none ∨ s.owner = some host) ∧ t = { s with port := s.port ++ [w], owner := some host } := by
  unfold sendTurn at h
  split at h
  · next ho => exact ⟨ho, by simpa using h.symm⟩
  · cases h

/-- Everything an acceptance step can do when it answers a next state. -/
theorem acceptTurn_next {s t : State} (h : acceptTurn s = .next t) :
    (∃ i rest, decode (s.pend ++ s.port) = .frame i rest ∧ exec i s = .next t) ∨
    (∃ w rest, decode (s.pend ++ s.port) = .illegal w rest ∧ illegalHeader s = .next t) ∨
    (decode (s.pend ++ s.port) = .incomplete ∧ t = { s with pend := s.pend ++ s.port, port := [] }) ∨
    (decode (s.pend ++ s.port) = .empty ∧ t = s) := by
  unfold acceptTurn frameWords at h
  split at h
  · next i rest hd => exact .inl ⟨i, rest, hd, h⟩
  · next w rest hd => exact .inr (.inl ⟨w, rest, hd, h⟩)
  · next hd => exact .inr (.inr (.inl ⟨hd, by simpa using h.symm⟩))
  · next hd => exact .inr (.inr (.inr ⟨hd, by simpa using h.symm⟩))

end Sys2Proof.Machine
end

