-- ==== Sys2Proof/Laws/Run.lean ====
section
/-! SUPPORT. Runs of several steps: one planned move at a time, and one part after another. -/

namespace Sys2Proof.Machine

/-- A run of `j + k` steps is `j` steps, then `k`. -/
theorem run_add {M : Host.Core} {j k : Nat} {s t : M.State} (h : M.run j s = .next t) :
    M.run (j + k) s = M.run k t := by
  induction j generalizing s with
  | zero =>
    simp only [Host.Core.run] at h
    cases h
    rw [Nat.zero_add]
  | succ j ih =>
    rw [Nat.succ_add]
    simp only [Host.Core.run] at h ⊢
    split at h
    · exact ih h
    · cases h
    · cases h

/-- A run whose first step answers `t` goes on from `t`. -/
theorem run_succ {M : Host.Core} {n : Nat} {s t : M.State} (h : M.step s = .next t) :
    M.run (n + 1) s = M.run n t := by
  simp only [Host.Core.run, h]

/-- A run whose first planned move answers `t` goes on from `t`. -/
theorem run_succ_of_cons {n : Nat} {s t : State} {turn : Turn} {rest : List Turn} (hs : s.sched = turn :: rest)
    (ht : takeTurn turn { s with sched := rest } = .next t) :
    Sys2Proof.core.run (n + 1) s = Sys2Proof.core.run n t :=
  run_succ (M := Sys2Proof.core) ((step_of_cons hs).trans ht)

end Sys2Proof.Machine
end

