-- ==== Sys2Proof/Laws/HostLoop.lean ====
section
/-! SUPPORT. What one turn of a host procedure can do, said once for each way it can go. -/

namespace Sys2Proof.Machine

/-- The port's one host sends words, one planned move each: they join the end of the command port. -/
theorem run_sends {host : Nat} {ws : List Word} {s : State} {rest : List Turn} (ho : s.owner = none ∨ s.owner = some host)
    (hw : ws ≠ []) (hs : s.sched = ws.map (Turn.send host) ++ rest) :
    Sys2Proof.core.run ws.length s = .next { s with port := s.port ++ ws, owner := some host, sched := rest } := by
  induction ws generalizing s with
  | nil => exact absurd rfl hw
  | cons w ws ih =>
    have ht : takeTurn (.send host w) { s with sched := ws.map (Turn.send host) ++ rest } =
        .next { s with port := s.port ++ [w], owner := some host, sched := ws.map (Turn.send host) ++ rest } := by
      simp [takeTurn, sendTurn, ho]
    refine (run_succ_of_cons hs ht).trans ?_
    by_cases h : ws = []
    · subst h; rfl
    · exact (ih (.inr rfl) h rfl).trans (by simp)

/-- A command's frame is never empty. -/
theorem encode_ne_nil (i : Instr) : encode i ≠ [] := by cases i <;> simp [encode]

/-- Issuing a command is a run of the moves after it, from the state with its frame at the end of the command port. -/
theorem issue_eq {host : Nat} {i : Instr} {moves : List Turn} {s : State} (ho : s.owner = none ∨ s.owner = some host) :
    issue host i moves s =
      Sys2Proof.core.run moves.length { s with port := s.port ++ encode i, owner := some host, sched := moves } := by
  have hl : (issueTurns host i moves).length = (encode i).length + moves.length := by simp [issueTurns]
  rw [issue, hl]
  exact run_add (run_sends (s := { s with sched := issueTurns host i moves }) ho (encode_ne_nil i) rfl)

/-- A response that says INIT: the loop goes round, with that response before the later ones. -/
theorem waitReady_again {host : Nat} {moves : List Turn} {turns : List (List Turn)} {s t : State} {z : Word}
    (hp : issue host .status moves s = .next t) (ha : answer moves s t = some z) (hz : waitAgain z = true) :
    waitReady host (moves :: turns) s =
      { waitReady host turns t with responses := z :: (waitReady host turns t).responses } := by
  simp [waitReady, hp, ha, hz]

/-- A response that says another phase: the loop is left. -/
theorem waitReady_left {host : Nat} {moves : List Turn} {turns : List (List Turn)} {s t : State} {z : Word}
    (hp : issue host .status moves s = .next t) (ha : answer moves s t = some z) (hz : waitAgain z = false) :
    waitReady host (moves :: turns) s = { state := t, responses := [z], ending := .left } := by
  simp [waitReady, hp, ha, hz]

/-- No response yet: the host waits. -/
theorem waitReady_unanswered {host : Nat} {moves : List Turn} {turns : List (List Turn)} {s t : State}
    (hp : issue host .status moves s = .next t) (ha : answer moves s t = none) :
    waitReady host (moves :: turns) s = { state := t, responses := [], ending := .unanswered } := by
  simp [waitReady, hp, ha]

/-- A GEN whose word is popped: the next one is issued, with that word before the later ones. -/
theorem genWords_popped {host n : Nat} {moves : Nat → List Turn} {s t : State} {z : Word}
    (hp : issue host .gen (moves 0) s = .next t) (ha : answer (moves 0) s t = some z) :
    genWords host (n + 1) moves s =
      { genWords host n (fun j => moves (j + 1)) t with
        words := z :: (genWords host n (fun j => moves (j + 1)) t).words } := by
  simp [genWords, hp, ha]

/-- A GEN whose word does not come: the host waits, and issues no other. -/
theorem genWords_unanswered {host n : Nat} {moves : Nat → List Turn} {s t : State}
    (hp : issue host .gen (moves 0) s = .next t) (ha : answer (moves 0) s t = none) :
    genWords host (n + 1) moves s = { state := t, words := [], ending := .unanswered } := by
  simp [genWords, hp, ha]

/-- The moves of a turn in which the controller runs and the response is popped are no input. -/
theorem noInput_pollMoves (n : Nat) : noInput (pollMoves n) = true := by simp [noInput, pollMoves]

end Sys2Proof.Machine
end

