-- ==== Sys2Proof/Laws/PerInstr.lean ====
section
/-! SUPPORT. Statements about every command as syntax, one lemma a constructor. -/

namespace Sys2Proof.Laws.FrameShape

/-- The encoding of a command is a well-formed frame: a legal header with its reserved field 0, followed by the payload words of its
opcode (30_encoding.md R71, R72). -/
def Statement (i : Instr) : Prop := frameWellFormed (encode i) = true

theorem load (key iv : Bytes16) : Statement (.load key iv) := rfl

theorem gen : Statement .gen := rfl

theorem status : Statement .status := rfl

end Sys2Proof.Laws.FrameShape
end

