-- ==== Sys2Proof/Tests/Slice0.lean ====
section
/-! SUPPORT. Small tests, each one step or one word with its expected value from the spec (95_test_vectors.md or the rule named), and
for every obligation with hypotheses a witness that meets them. -/

namespace Sys2Proof.Tests

open Sys2Proof.Machine

/-- The next state of an outcome, if it is one. -/
def nextOf (o : StepOutcome) : Option State :=
  match o with
  | .next t => some t
  | .fault _ | .refused _ => none

def zero16 : Bytes16 := Vector.replicate 16 0x00
def ones16 : Bytes16 := Vector.replicate 16 0xFF

/-- 95_test_vectors.md section 2.8, vector 1.1: the state after construction from the all-zero key and IV. -/
def readySample : State := { State.reset with
  cells := some #v[0x747CA0C4, 0x6259DD0B, 0x47A94C2B, 0x3A89C82E, 0x32B433FC, 0x231EA13F, 0x31711E42, 0x4CCCE955,
    0x3FB6071E, 0x161D3512, 0x7114B136, 0x5154D452, 0x78C69A74, 0x4F26BA6B, 0x3E1B8D6A, 0x7F08E141]
  r1 := some 0x3512BF50
  r2 := some 0xA0920453
  x := some #v[0x7C37BA6B, 0xB1367F6C, 0x1E426568, 0xDD0BF9C2]
  phase := .ready
  round := 33 }

/-- 95_test_vectors.md section 2.8: the zero key before its warm-up round. -/
def warmupSample : State := { State.reset with
  cells := some #v[0x7CE15B8B, 0x747CA0C4, 0x6259DD0B, 0x47A94C2B, 0x3A89C82E, 0x32B433FC, 0x231EA13F, 0x31711E42,
    0x4CCCE955, 0x3FB6071E, 0x161D3512, 0x7114B136, 0x5154D452, 0x78C69A74, 0x4F26BA6B, 0x3E1B8D6A]
  r1 := some 0x14CFD44C
  r2 := some 0x8C6DE800
  phase := .init
  round := 32 }

/-- 95_test_vectors.md section 2.4, row 1: the zero key just loaded, at round `k`. -/
def initSample (k : BitVec 6) : State := { State.reset with
  cells := some (keyCells zero16 zero16), r1 := some 0, r2 := some 0, phase := .init, round := k }

/-- 95_test_vectors.md P3: a GEN before any LOAD. -/
def faultSample : State := { State.reset with phase := .fault, cause := .notReady }

/-- A state with its response FIFO full. -/
def full (s : State) : State := { s with resp := List.replicate Config.respDepth 0 }

/-- A state whose next move is an acceptance step on these port words. -/
def accepting (ws : List Word) (s : State) : State := { s with port := ws, sched := [.accept] }

-- WellFormed: an ill-formed input for each check, and a well-formed one

theorem test_frame_no_word : frameWellFormed [] = false := by decide
theorem test_frame_reserved_nonzero : frameWellFormed [0x00000102] = false := by decide
theorem test_frame_opcode_unassigned : frameWellFormed [0x00000004] = false := by decide
theorem test_frame_payload_missing : frameWellFormed [0x00000001, 0, 0, 0, 0, 0, 0, 0] = false := by decide
theorem test_frame_payload_too_long : frameWellFormed [0x00000002, 0] = false := by decide
theorem test_frame_load : frameWellFormed [0x00000001, 0, 0, 0, 0, 0, 0, 0, 0] = true := by decide
theorem test_buffer_key_short : buffersWellFormed (List.replicate 15 0) (List.replicate 16 0) = false := by decide
theorem test_buffer_iv_long : buffersWellFormed (List.replicate 16 0) (List.replicate 17 0) = false := by decide
theorem test_mkLoad_rejects : mkLoad (List.replicate 15 0) (List.replicate 16 0) = none := by decide

-- Decoding: one word a family, written out from R71..R73 (payload of 95_test_vectors.md section 1.3), and the fixed-name decoder

theorem test_decode_load :
    decode [0x00000001, 0x3D4C4BE9, 0x6A82FDAE, 0xB58F641D, 0xB17B455B, 0x84319AA8, 0xDE6915CA, 0x1F6BDA6B, 0xFBD8C766] =
      .frame (.load
        #v[0x3d, 0x4c, 0x4b, 0xe9, 0x6a, 0x82, 0xfd, 0xae, 0xb5, 0x8f, 0x64, 0x1d, 0xb1, 0x7b, 0x45, 0x5b]
        #v[0x84, 0x31, 0x9a, 0xa8, 0xde, 0x69, 0x15, 0xca, 0x1f, 0x6b, 0xda, 0x6b, 0xfb, 0xd8, 0xc7, 0x66]) [] := by
  decide +kernel
theorem test_decode_gen : decode [0b00000000000000000000000000000010] = .frame .gen [] := by decide
theorem test_decode_status : decode [0b00000000000000000000000000000011] = .frame .status [] := by decide
theorem test_decode_illegal : decode [0x80000001] = .illegal 0x80000001 [] := by decide
theorem test_table_word_load : decodeTableWord 32 0x00000001 = some (.load zero16 zero16) := by decide +kernel
theorem test_table_word_second_word : decodeTableWord 64 0x3D4C4BE900000001 =
    some (.load #v[0x3d, 0x4c, 0x4b, 0xe9, 0, 0, 0, 0, 0, 0, 0, 0, 0, 0, 0, 0] zero16) := by decide +kernel

-- One step of each command (95_test_vectors.md sections 2.4, 2.9, 2.10; P5's end state)

theorem test_load_cell : (nextOf (exec (.load ones16 ones16) readySample)).bind (·.cells) = some
    #v[0x7FC4D7FF, 0x7FA6BCFF, 0x7FE26BFF, 0x7F935EFF, 0x7FD789FF, 0x7FB5E2FF, 0x7FF135FF, 0x7F89AFFF, 0x7FCD78FF,
      0x7FAF13FF, 0x7FEBC4FF, 0x7F9AF1FF, 0x7FDE26FF, 0x7FBC4DFF, 0x7FF89AFF, 0x7FC7ACFF] := by decide +kernel
theorem test_load_after_reset : (nextOf (step (State.reset.withFetchWord 32 1))).map (fun t => (t.phase, t.r1, t.port)) =
    some (.init, some 0, []) := by decide +kernel
theorem test_gen_word : (nextOf (exec .gen readySample)).map (·.resp) = some [0x27BEDE74] := by decide +kernel
theorem test_gen_registers : (nextOf (exec .gen readySample)).map (fun t => (t.r1, t.r2, t.cells.map (·[15]))) =
    some (some 0xC7EE7F13, some 0x0C0FA817, some 0x3D383D04) := by decide +kernel
theorem test_status_ready : (nextOf (exec .status readySample)).map (·.resp) = some [0x00002102] := by decide +kernel
theorem test_status_fault :
    (nextOf (exec .status { faultSample with round := 5, cause := .illegalCommand })).map (·.resp) = some [0x00010503] := by
  decide +kernel
theorem test_gen_after_reset : (nextOf (step (State.reset.withFetchWord 32 2))).map (fun t => (t.phase, t.cause)) =
    some (.fault, .notReady) := by decide +kernel
theorem test_status_after_reset : (nextOf (step (State.reset.withFetchWord 32 3))).map (·.resp) = some [0x00000000] := by
  decide +kernel
theorem test_illegal_after_reset : (nextOf (step (State.reset.withFetchWord 32 0x102))).map (fun t => (t.phase, t.cause)) =
    some (.fault, .illegalCommand) := by decide +kernel

-- One step of the controller (95_test_vectors.md section 2.7 rounds 1 and 33)

theorem test_init_round_one : (nextOf (controllerStep (initSample 0))).map (fun t => (t.r1, t.r2, t.cells.map (·[15]))) =
    some (some 0x67822141, some 0x62A3A55F, some 0x4563CB1B) := by decide +kernel
theorem test_warmup_round : (nextOf (controllerStep warmupSample)).map (fun t => (t.phase, t.r1, t.r2, t.x)) =
    some (.ready, some 0x3512BF50, some 0xA0920453, some #v[0x7C37BA6B, 0xB1367F6C, 0x1E426568, 0xDD0BF9C2]) := by
  decide +kernel

-- Datapath corners (95_test_vectors.md sections 2.2, 2.3, 2.5)

theorem test_work_all_P : (lfsrWork (Vector.replicate 16 0x7FFFFFFF))[15] = 0x7FFFFFFF := by decide +kernel
theorem test_br_ramp : br (Vector.ofFn fun i : Fin 16 => BitVec.ofNat 31 (0x40000000 + i.val)) =
    #v[0x8000000E, 0x000B8000, 0x00078000, 0x00028000] := by decide +kernel
theorem test_layers : (l1 0xDEADBEEF, l2 0xDEADBEEF, sbox 0xDEADBEEF) = (0x06812D22, 0x50F4624E, 0xE2B8AA28) := by
  decide +kernel

-- Host-side text (95_test_vectors.md P5, P6)

theorem test_parse_word : parseLine ".word 0x00000102       ; illegal" = some (.word 0x00000102) := by decide +kernel
/-- One turn of WAIT_READY's loop: in FAULT it is left with the spec's word (95_test_vectors.md P3), in INIT it goes round (P2). -/
theorem test_wait_ready_turn :
    (waitReady 0 [pollMoves 0] faultSample).responses = [0x00020003] ∧ (waitReady 0 [pollMoves 0] faultSample).ending = .left ∧
    (waitReady 0 [pollMoves 0] (initSample 0)).responses = [0x00000001] ∧
    (waitReady 0 [pollMoves 0] (initSample 0)).ending = .again := by decide +kernel
/-- 00_scope.md R8's underscore inside a literal, and log entry 17's choice that none stands alone or last. -/
theorem test_parse_word_underscore : parseLine ".word 0x0180_82da" = some (.word 0x018082DA) ∧ parseLine ".word _" = none ∧
    parseLine ".word 1_" = none := by decide +kernel
/-- Log entry 17's choice: a tab separates as a space does, and a mnemonic needs one of them. -/
theorem test_parse_tab : parseLine "KEYSTREAM\t 12" = some (.keystream 12) ∧ parseLine ".word\t0x00000102" =
    some (.word 0x00000102) ∧ parseLine "KEYSTREAM12" = none := by decide +kernel
theorem test_xor_bytes :
    xorBytes [0x00, 0x11, 0x22, 0x33, 0x44, 0x55, 0x66, 0x77, 0x88]
      (keystreamBytes [0x14F1C272, 0x3279C419, 0x4B8EA41D]) =
    [0x14, 0xe0, 0xe0, 0x41, 0x76, 0x2c, 0xa2, 0x6e, 0xc3] := by decide +kernel

-- Witnesses: for each obligation with hypotheses, states and operands that meet them

theorem reset_room : State.reset.resp.length ≠ Config.respDepth := by simp [State.reset, Config.respDepth]
theorem ready_room : readySample.resp.length ≠ Config.respDepth := by simp [readySample, State.reset, Config.respDepth]
theorem full_full (s : State) : (full s).resp.length = Config.respDepth := by simp [full]
theorem ready_legal : ∀ cells, readySample.cells = some cells → cellsLegal cells = true := by
  intro cells h
  cases h
  decide +kernel
theorem init_legal : cellsLegal (keyCells zero16 zero16) = true := by decide +kernel

theorem ready_inv : StateInv readySample := by
  refine ⟨by simp [ControlOk, readySample, State.reset], ?_, by simp [PortsOk, readySample, State.reset]⟩
  exact ⟨⟨rfl, rfl⟩, fun _ => rfl, by simp [readySample], fun _ => rfl, fun _ => rfl, ready_legal⟩
theorem init_inv (k : BitVec 6) (h : k.toNat ≤ 32) : StateInv (initSample k) := by
  refine ⟨by simpa [ControlOk, initSample, State.reset] using h, ?_, by simp [PortsOk, initSample, State.reset]⟩
  refine ⟨⟨rfl, rfl⟩, fun _ => rfl, by simp [initSample], fun _ => rfl, by simp [initSample], ?_⟩
  intro cells hc
  cases hc
  exact init_legal

theorem witness_ResetStepRestoresResetState : { readySample with sched := [.reset] }.sched = .reset :: [] := rfl
theorem witness_IllegalHeadersAreOneWordFrames :
    (let s := accepting [0x00000102] State.reset
     s.pend ++ s.port = 0x00000102 :: [] ∧ rsvField 0x00000102 ≠ 0 ∧ s.phase ≠ .fault) ∧
    (let s := accepting [0x000000FF] (initSample 32)
     s.pend ++ s.port = 0x000000FF :: [] ∧ opcField 0x000000FF ≠ 0x01 ∧ opcField 0x000000FF ≠ 0x02 ∧
       opcField 0x000000FF ≠ 0x03 ∧ s.phase ≠ .fault) ∧
    (List.replicate 8 (0xFFFFFFFF : Word)).length = 8 := by decide +kernel
theorem witness_EncodeOfDecodedFrame : decode [0x00000002, 0x00000003] = .frame .gen [0x00000003] := by decide
/-- 95_test_vectors.md P5's words after its LOAD: an illegal header is one frame among others. -/
theorem test_stream_illegal : decodeStream [0x00000002, 0x00000102, 0x00000002, 0x00000003] =
    .ok [.command .gen, .illegal 0x00000102, .command .gen, .command .status] := by
  simp [decodeStream, decodeStreamFrom, decode, decodeHeader, Except.map]
theorem witness_StreamDecoderCutsFrames :
    (∀ h, Frame.illegal h ∈ [Frame.command .gen, .illegal 0x00000102] → decodeHeader h = .illegal) ∧
    decodeStream [0x00000002, 0x00000102] = .ok [.command .gen, .illegal 0x00000102] ∧
    ([0x00000001] : List Word).head? = some 0x00000001 ∧ ([0x00000001] : List Word).length ≤ 8 ∧
    (0x00000001 :: List.replicate 7 0 : List Word).length ≤ 8 :=
  ⟨by simp [decodeHeader], by simp [decodeStream, decodeStreamFrom, decode, decodeHeader, Except.map], by decide, by decide,
    by decide⟩
theorem witness_StatusWordLayout :
    (State.reset.phase = .uninit ∧ State.reset.round = 0 ∧ State.reset.cause = .none) ∧
    (readySample.phase = .ready ∧ readySample.round = 33 ∧ readySample.cause = .none) ∧
    ((initSample 5).phase = .init ∧ (initSample 5).round = 5 ∧ (initSample 5).cause = .none) ∧
    (faultSample.phase = .fault ∧ faultSample.round = 0 ∧ faultSample.cause = .notReady) ∧
    (let s := { readySample with phase := .fault, cause := .illegalCommand }
     s.phase = .fault ∧ s.round = 33 ∧ s.cause = .illegalCommand) := by decide +kernel
theorem witness_AssemblerExpandsLines :
    (∀ y ∈ [(0x00000001 : Word), 0x00002001], waitAgain y = true) ∧ waitAgain 0x00002102 = false ∧
    (List.replicate 15 (0 : Byte)).length ≠ 16 ∧ (List.replicate 17 (0 : Byte)).length ≠ 16 :=
  ⟨by simp [waitAgain, statusPhase, phaseCode], by decide +kernel, by decide, by decide⟩
theorem witness_Mulmod31MultipliesModuloP : (30 : Nat) ≤ 30 ∧ (0 : Nat) ≤ 30 ∧ (0x7FFFFFFE : Cell) ≠ 0x7FFFFFFF := by decide
theorem witness_FeedbackChainsEqualExactUpdate (s : Cells) :
    IsShiftTerm (rot31 s[15] 15) s[15] 15 ∧ IsShiftTerm (rot31 s[13] 17) s[13] 17 ∧
    IsShiftTerm (mulmod31 s[10] (BitVec.ofNat 31 (2 ^ 21))) s[10] 21 ∧ IsShiftTerm (rot31 s[4] 20) s[4] 20 ∧
    IsLastTerm (addmod31 (rot31 s[0] 8) s[0]) s[0] ∧ IsLastTerm (mulmod31 s[0] (BitVec.ofNat 31 (2 ^ 8 + 1))) s[0] :=
  ⟨.inr rfl, .inr rfl, .inl rfl, .inr rfl, .inr ⟨_, .inr rfl, rfl⟩, .inl rfl⟩
/-- The source's own order of the five terms is one chain; a chain with u in the middle is another. -/
theorem witness_FeedbackChainsEqualExactUpdate_chains (a b c d e u : Cell) :
    (let chain := AddChain.add (.add (.add (.add (.term a) (.term b)) (.term c)) (.term d)) (.term e)
     chainValue chain = feedbackChain a b c d e ∧ (chainTerms chain).Perm [a, b, c, d, e]) ∧
    (chainTerms (.add (.add (.term a) (.term u)) (.add (.add (.term b) (.term c)) (.add (.term d) (.term e))))).Perm
      [a, b, c, d, e, u] := ⟨⟨rfl, .refl _⟩, .cons a (List.perm_append_comm (l₁ := [u]) (l₂ := [b, c, d, e]))⟩
theorem witness_UpdatesKeepCellsInRange : cellsLegal (keyCells zero16 zero16) = true := init_legal
theorem witness_LinearLayersRotateAndXor : (2 : Nat) ∈ [2, 8, 10, 14, 18, 22, 24, 30] ∧
    (30 : Nat) ∈ [2, 8, 10, 14, 18, 22, 24, 30] := by decide
theorem witness_NonlinearFComputesFromOldRegisters :
    let x : XBuf := #v[1, 2, 3, 4]
    let y : XBuf := #v[1, 2, 3, 5]
    x[0] = y[0] ∧ x[1] = y[1] ∧ x[2] = y[2] := ⟨rfl, rfl, rfl⟩
theorem witness_ControllerTransitionsAreTheTable :
    (StateInv (initSample 31) ∧ (nextOf (step (initSample 31))).isSome = true) ∧
    (StateInv (initSample 32) ∧ (nextOf (step (initSample 32))).isSome = true) ∧
    (StateInv readySample ∧ (nextOf (step readySample)).isSome = true) :=
  ⟨⟨init_inv 31 (by decide), by decide +kernel⟩, ⟨init_inv 32 (by decide), by decide +kernel⟩, ready_inv, by decide +kernel⟩
theorem witness_LoadKeysTheGenerator : State.reset.phase = .uninit ∧ readySample.phase = .ready := ⟨rfl, rfl⟩
theorem witness_ControllerRunsInitRound :
    ((initSample 0).phase = .init ∧ (initSample 0).round.toNat ≤ 31 ∧ (initSample 31).round.toNat ≤ 31) ∧
    (initSample 0).cells = some (keyCells zero16 zero16) ∧ (initSample 0).r1 = some 0 ∧ (initSample 0).r2 = some 0 ∧
    cellsLegal (keyCells zero16 zero16) = true := ⟨by decide +kernel, rfl, rfl, rfl, init_legal⟩
theorem witness_ControllerRunsWarmupRound :
    (initSample 32).phase = .init ∧ (initSample 32).round = 32 ∧ (initSample 32).cells = some (keyCells zero16 zero16) ∧
    (initSample 32).r1 = some 0 ∧ (initSample 32).r2 = some 0 ∧ cellsLegal (keyCells zero16 zero16) = true :=
  ⟨rfl, rfl, rfl, rfl, rfl, init_legal⟩
theorem witness_GenEmitsKeystreamWord :
    readySample.phase = .ready ∧ readySample.resp.length ≠ Config.respDepth ∧
    ∃ cells, readySample.cells = some cells ∧ readySample.r1 = some 0x3512BF50 ∧ readySample.r2 = some 0xA0920453 ∧
      cellsLegal cells = true := ⟨rfl, ready_room, _, rfl, rfl, rfl, ready_legal _ rfl⟩
theorem witness_ControllerHasNoStepOutsideInit : readySample.phase ≠ .init ∧ faultSample.phase ≠ .init := by decide +kernel
theorem witness_ThirtyThreeControllerStepsReachReady :
    let s := { initSample 0 with sched := List.replicate 33 Turn.controller }
    let d : Datapath := { cells := keyCells zero16 zero16, r1 := 0, r2 := 0 }
    s.phase = .init ∧ s.round = 0 ∧ s.cells = some d.cells ∧ s.r1 = some d.r1 ∧ s.r2 = some d.r2 ∧
      cellsLegal d.cells = true ∧ s.sched = List.replicate 33 .controller ++ [] :=
  ⟨rfl, rfl, rfl, rfl, rfl, init_legal, by simp⟩
theorem witness_KeystreamDependsOnKeyAndIvOnly :
    (State.reset.phase = .uninit ∧ readySample.phase = .ready) ∧
    (SameGenerator (initSample 0) { initSample 0 with x := readySample.x } ∧
      (nextOf (controllerStep (initSample 0))).isSome = true) ∧
    (SameGenerator readySample { readySample with x := none } ∧ readySample.resp.length ≠ Config.respDepth ∧
      (nextOf (exec .gen readySample)).isSome = true) :=
  ⟨⟨rfl, rfl⟩, ⟨⟨rfl, rfl, rfl, rfl, rfl⟩, by decide +kernel⟩, ⟨rfl, rfl, rfl, rfl, rfl⟩, ready_room, by decide +kernel⟩
theorem witness_LoadHeldInInitDiscardedInFault : (initSample 0).phase = .init ∧ faultSample.phase = .fault := ⟨rfl, rfl⟩
theorem witness_GenHeldFaultedOrDiscarded :
    ((full readySample).phase = .ready ∧ (full readySample).resp.length = Config.respDepth) ∧ (initSample 0).phase = .init ∧
    State.reset.phase = .uninit ∧ faultSample.phase = .fault := ⟨⟨rfl, full_full _⟩, rfl, rfl, rfl⟩
theorem witness_StatusEmitsStatusWord :
    State.reset.resp.length ≠ Config.respDepth ∧ (full faultSample).resp.length = Config.respDepth := ⟨reset_room, full_full _⟩
theorem witness_StatusAfterLoadAdmitsEveryRound :
    ((0 : Nat) ≤ 33 ∧ (32 : Nat) ≤ 33 ∧ (33 : Nat) ≤ 33) ∧ ∀ k : Nat,
      let s := { readySample with owner := some 3, sched := afterLoadTurns 3 ones16 zero16 k }
      StateInv s ∧ s.phase = .ready ∧ s.pend = [] ∧ s.port = [] ∧ s.resp = [] ∧ s.owner = some 3 ∧
        s.sched = afterLoadTurns 3 ones16 zero16 k ++ [] :=
  ⟨by decide, fun _ => ⟨ready_inv, rfl, rfl, rfl, rfl, rfl, by simp⟩⟩
theorem witness_IllegalHeaderFaultsOrIsDiscarded :
    (let s := accepting [0x00000000] (initSample 7)
     s.sched = .accept :: [] ∧ decode (s.pend ++ s.port) = .illegal 0x00000000 [] ∧ s.phase ≠ .fault) ∧
    (let s := accepting [0x00000004] faultSample
     s.sched = .accept :: [] ∧ decode (s.pend ++ s.port) = .illegal 0x00000004 [] ∧ s.phase = .fault) := by decide +kernel
theorem witness_HeldFrameStays :
    (let s := accepting [0x00000002] (initSample 0)
     s.sched = .accept :: [] ∧ decode (s.pend ++ s.port) = .frame .gen [] ∧ Instr.gen ≠ .status ∧ s.phase = .init) ∧
    (let s := accepting [0x00000002] (full readySample)
     s.sched = .accept :: [] ∧ decode (s.pend ++ s.port) = .frame .gen [] ∧ s.phase = .ready ∧
       s.resp.length = Config.respDepth) ∧
    (let s := accepting [0x00000003] (full readySample)
     s.sched = .accept :: [] ∧ decode (s.pend ++ s.port) = .frame .status [] ∧ s.resp.length = Config.respDepth) :=
  ⟨⟨rfl, rfl, by simp, rfl⟩, ⟨rfl, rfl, rfl, full_full readySample⟩, rfl, rfl, full_full readySample⟩
theorem witness_PopDeliversOldestWord :
    { readySample with resp := [7, 8], sched := [.pop] }.resp = 7 :: [8] ∧
    { readySample with sched := [.pop] }.resp = [] := ⟨rfl, rfl⟩
theorem witness_steps_without_reset :
    ∀ ws ∈ [[0x00000002], [0x00000003], [0x00000102], [0x00000001]],
      (nextOf (step (accepting ws readySample))).isSome = true ∧ (nextTurn (accepting ws readySample)).1 ≠ .reset := by
  decide +kernel
theorem witness_CommandWordsTakenInOrder :
    (let s := { initSample 4 with sched := [.send 1 0x00000002] }
     s.sched = .send 1 0x00000002 :: [] ∧ s.owner = none) ∧
    (let s := { faultSample with owner := some 1, sched := [.send 1 0x00000003] }
     s.sched = .send 1 0x00000003 :: [] ∧ s.owner = some 1) := ⟨⟨rfl, rfl⟩, rfl, rfl⟩
theorem witness_IncompleteFrameWaitsInPend :
    (let s := accepting [0x00000001] State.reset
     s.sched = .accept :: [] ∧ decode (s.pend ++ s.port) = .incomplete) ∧
    (let s := accepting [5] { State.reset with pend := [0x00000001, 0, 1, 2, 3, 4, 5] }
     s.sched = .accept :: [] ∧ decode (s.pend ++ s.port) = .incomplete) := by decide +kernel
theorem witness_HostStepsKeepDatapathInInit :
    (let s := accepting [0x00000003] (initSample 4)
     s.phase = .init ∧ (nextOf (step s)).isSome = true ∧ (nextTurn s).1 ≠ .controller ∧ (nextTurn s).1 ≠ .reset ∧
       decode (s.pend ++ s.port) = .frame .status []) ∧
    SameCore (initSample 0) { initSample 0 with resp := [9] } ∧ (nextOf (controllerStep (initSample 0))).isSome = true :=
  ⟨by decide +kernel, ⟨⟨rfl, rfl, rfl, rfl, rfl⟩, rfl, rfl⟩, by decide +kernel⟩
theorem witness_OtherInstancesUnchanged :
    ∃ q, platformStep { cores := [accepting [0x00000002] State.reset, readySample] } ⟨0, by decide⟩ = .next q :=
  ⟨{ cores := [raiseFault .notReady 1 { State.reset with port := [0x00000002] }, readySample] }, rfl⟩
theorem witness_XorKeystreamRunDeliversKeystream :
    let s := { readySample with owner := some 3, sched := xorTurns 3 ones16 zero16 9 }
    s.phase = .ready ∧ s.pend = [] ∧ s.port = [] ∧ s.resp = [] ∧ s.owner = some 3 ∧
      s.sched = xorTurns 3 ones16 zero16 9 ++ [] := ⟨rfl, rfl, rfl, rfl, rfl, by simp⟩
theorem witness_KeystreamContents : (0 : Nat) < 1 ∧ [(0x11 : Byte), 0x22][1]? = some 0x22 ∧ (31 : Nat) < 32 := by decide
theorem witness_WaitReadyLoopsWhileInit :
    (StateInv (initSample 0) ∧ (initSample 0).phase = .init ∧ (initSample 0).pend = [] ∧ (initSample 0).port = [] ∧
      (initSample 0).resp = [] ∧ (initSample 0).owner = none ∧
      (∀ i < 2, (initSample 0).round.toNat + ([32, 1].take i).sum < 33) ∧
      (∀ i < 1, (initSample 0).round.toNat + ([32].take i).sum < 33)) ∧
    (faultSample.phase ≠ .init ∧ faultSample.pend = [] ∧ faultSample.port = [] ∧ faultSample.resp = [] ∧
      faultSample.owner = none) :=
  ⟨⟨init_inv 0 (by decide), rfl, rfl, rfl, rfl, rfl, by decide +kernel, by decide +kernel⟩, by decide +kernel⟩
theorem witness_RunXorKeystreamGivesKeystream :
    ((readySample.phase = .ready ∧ readySample.pend = [] ∧ readySample.port = [] ∧ readySample.resp = [] ∧
      readySample.owner = none) ∧ noInput [.accept] = true ∧
      (∃ result, runXorKeystream 0 zero16 zero16 [] [] (fun _ => []) readySample = some result) ∧ (33 : Nat) ≤ 0 + 33) ∧
    (faultSample.phase = .fault ∧ faultSample.pend = [] ∧ faultSample.port = [] ∧ faultSample.resp = [] ∧
      faultSample.owner = none ∧ (∀ j : Nat, noInput (pollMoves j) = true) ∧ [(0x00 : Byte)] ≠ []) :=
  ⟨⟨⟨rfl, rfl, rfl, rfl, rfl⟩, rfl, ⟨_, rfl⟩, by decide⟩, rfl, rfl, rfl, rfl, rfl, noInput_pollMoves, by decide⟩
/-- R200: in FAULT the GEN is discarded and the procedure still waits for its word. -/
theorem test_xor_in_fault : runXorKeystream 0 zero16 zero16 [0x00] [.accept] (fun _ => pollMoves 0) faultSample = none := by
  decide +kernel
theorem witness_FaultEntryIsPrecise :
    ∃ t, step (accepting [0x00000002] State.reset) = .next t ∧ (accepting [0x00000002] State.reset).phase ≠ .fault ∧
      t.phase = .fault :=
  ⟨raiseFault .notReady 1 { State.reset with port := [0x00000002] }, rfl, by decide +kernel, rfl⟩
theorem witness_FaultIsSticky :
    ∃ t, step (accepting [0x00000003] faultSample) = .next t ∧ faultSample.phase = .fault ∧
      (nextTurn (accepting [0x00000003] faultSample)).1 ≠ .reset :=
  ⟨{ faultSample with resp := [0x00020003] }, rfl, rfl, by decide +kernel⟩
theorem witness_SecondHostStreamRefused :
    let s := { readySample with owner := some 0, sched := [.send 1 0x00000002] }
    s.sched = .send 1 0x00000002 :: [] ∧ s.owner = some 0 ∧ (0 : Nat) ≠ 1 := ⟨rfl, rfl, by decide⟩
theorem witness_UnwrittenAndZeroCellsStop :
    (readySample.phase = .ready ∧ readySample.resp.length ≠ Config.respDepth) ∧
    { readySample with cells := none }.cells = none ∧
    ({ readySample with r1 := none }.cells ≠ none ∧ { readySample with r1 := none }.r1 = none) ∧
    ({ readySample with r2 := none }.cells ≠ none ∧ { readySample with r2 := none }.r1 ≠ none ∧
      { readySample with r2 := none }.r2 = none) ∧
    ({ readySample with cells := some (Vector.replicate 16 0) }.cells = some (Vector.replicate 16 0) ∧
      ∃ i : Fin 16, (Vector.replicate 16 (0 : Cell))[i] = 0) :=
  ⟨⟨rfl, ready_room⟩, rfl, ⟨by simp [readySample], rfl⟩, ⟨by simp [readySample], by simp [readySample], rfl⟩, rfl, 0, rfl⟩
theorem witness_StepRunsDecodedFrame :
    (let s := accepting [0x00000003] readySample
     decode (s.pend ++ s.port) = .frame .status [] ∧ s.sched = .accept :: []) ∧
    (let s := { readySample with port := [0x00000003] }
     decode (s.pend ++ s.port) = .frame .status [] ∧ s.sched = [] ∧ s.phase ≠ .init) := by decide +kernel
theorem witness_PlacedInstructionRunsNext :
    decodeTableWord 32 0x00000002 = some .gen ∧ decodeTableWord 32 0x00000003 = some .status := by decide +kernel
theorem witness_InvariantKeptByEveryStep : StateInv readySample ∧ (nextOf (step readySample)).isSome = true :=
  ⟨ready_inv, by decide +kernel⟩
theorem witness_EveryStepCompletes : StateInv readySample ∧ OneHost readySample :=
  ⟨ready_inv, by simp [OneHost, nextTurn, ownTurn, readySample, State.reset]⟩
theorem witness_EndedRunStaysEnded : StateInv readySample ∧ Ended readySample :=
  ⟨ready_inv, ⟨rfl, rfl, rfl⟩, by simp [readySample], rfl⟩

end Sys2Proof.Tests
end

section
/-! SUPPORT. The cells a key loading or an update writes: none of them is 0 (10_state.md R22; 40_lfsr.md R108). -/

namespace Sys2Proof.Machine

/-- Some cell is 0 exactly where the register file is not legal. -/
theorem cellsLegal_eq_false_iff (cells : Cells) : cellsLegal cells = false ↔ ∃ i : Fin 16, cells[i] = 0 := by
  simp [cellsLegal]

/-- R9: the stored form of a residue, as a number. -/
theorem canonP_toNat (c : Nat) : (canonP c).toNat = if c % Config.P = 0 then Config.P else c % Config.P := by
  have hlt : c % Config.P < Config.P := Nat.mod_lt c (by decide)
  have hbits : (if c % Config.P = 0 then Config.P else c % Config.P) < 2 ^ 31 := by
    split
    · decide
    · exact hlt.trans (by decide)
  exact Nat.mod_eq_of_lt hbits

/-- R9, R108: P stands for the zero class, so a stored residue is never 0. -/
theorem canonP_ne_zero (c : Nat) : canonP c ≠ 0 := by
  intro h
  have hz : (if c % Config.P = 0 then Config.P else c % Config.P) = 0 := by simp [← canonP_toNat, h]
  split at hz
  · exact absurd hz (by decide)
  · contradiction

/-- R106: the shift leaves only old cells and the new one. -/
theorem cellsLegal_lfsrShift {cells : Cells} {s16 : Cell} (hl : cellsLegal cells = true) (h16 : s16 ≠ 0) :
    cellsLegal (lfsrShift cells s16) = true := by
  rw [cellsLegal_iff] at *
  intro i
  simp only [lfsrShift, Fin.getElem_fin, Vector.getElem_ofFn]
  split
  · next hi => exact hl ⟨i.val + 1, hi⟩
  · exact h16

theorem cellsLegal_lfsrInit {cells : Cells} (u : BitVec 31) (hl : cellsLegal cells = true) :
    cellsLegal (lfsrInit cells u) = true :=
  cellsLegal_lfsrShift hl (canonP_ne_zero _)

theorem cellsLegal_lfsrWork {cells : Cells} (hl : cellsLegal cells = true) : cellsLegal (lfsrWork cells) = true :=
  cellsLegal_lfsrShift hl (canonP_ne_zero _)

/-- R51: no D constant is 0. -/
theorem romD_ne_zero : ∀ i : Fin 16, romD i ≠ 0 := by decide

theorem extractLsb'_middle_append {l m n : Nat} (a : BitVec l) (d : BitVec m) (b : BitVec n) :
    (a ++ d ++ b).extractLsb' n m = d := by
  ext j hj
  simp [BitVec.getLsbD_append, hj]

/-- The middle bits of a loaded cell are its D constant (R151). -/
theorem keyCell_extract_romD (key iv : Bytes16) (i : Fin 16) : (keyCell key iv i).extractLsb' 8 15 = romD i :=
  extractLsb'_middle_append key[i] (romD i) iv[i]

/-- R151, R22: a loaded cell holds a nonzero D constant, so no loaded cell is 0, whatever the key and the IV. -/
theorem cellsLegal_keyCells (key iv : Bytes16) : cellsLegal (keyCells key iv) = true := by
  rw [cellsLegal_iff]
  intro i hz
  have hk : keyCell key iv i = 0 := by simpa [keyCells] using hz
  have hd := keyCell_extract_romD key iv i
  rw [hk] at hd
  exact romD_ne_zero i (by simpa using hd.symm)

theorem cellsLegal_initRoundData {d : Datapath} (hl : cellsLegal d.cells = true) :
    cellsLegal (initRoundData d).next.cells = true :=
  cellsLegal_lfsrInit _ hl

theorem cellsLegal_workRoundData {d : Datapath} (hl : cellsLegal d.cells = true) :
    cellsLegal (workRoundData d).next.cells = true :=
  cellsLegal_lfsrWork hl

end Sys2Proof.Machine
end

section
/-! SUPPORT. `StateInv` part by part: what each phase asks of the controller, and what each operation on the state must meet to
keep each part. -/

namespace Sys2Proof.Machine

theorem controlOk_of_uninit {s : State} (hp : s.phase = .uninit) : ControlOk s ↔ s.round = 0 ∧ s.cause = .none := by
  simp [ControlOk, hp]

theorem controlOk_of_init {s : State} (hp : s.phase = .init) : ControlOk s ↔ s.round.toNat ≤ 32 ∧ s.cause = .none := by
  simp [ControlOk, hp]

theorem controlOk_of_ready {s : State} (hp : s.phase = .ready) : ControlOk s ↔ s.round = 33 ∧ s.cause = .none := by
  simp [ControlOk, hp]

theorem controlOk_of_fault {s : State} (hp : s.phase = .fault) : ControlOk s ↔ s.round.toNat ≤ 33 ∧ s.cause ≠ .none := by
  simp [ControlOk, hp]

/-- R27: the round count is at most 33 in every phase. -/
theorem round_le_of_controlOk {s : State} (h : ControlOk s) : s.round.toNat ≤ 33 := by
  cases hp : s.phase with
  | uninit => simp [((controlOk_of_uninit hp).mp h).1]
  | init => exact Nat.le_succ_of_le ((controlOk_of_init hp).mp h).1
  | ready => simp [((controlOk_of_ready hp).mp h).1]
  | fault => exact ((controlOk_of_fault hp).mp h).1

/-- R28: outside FAULT there is no cause. -/
theorem cause_eq_none_of_controlOk {s : State} (h : ControlOk s) (hp : s.phase ≠ .fault) : s.cause = .none := by
  cases hq : s.phase with
  | uninit => exact ((controlOk_of_uninit hq).mp h).2
  | init => exact ((controlOk_of_init hq).mp h).2
  | ready => exact ((controlOk_of_ready hq).mp h).2
  | fault => exact absurd hq hp

/-- Outside UNINIT, writing legal registers (and `x` where the new phase is READY) is all `RegistersOk` asks. -/
theorem registersOk_writeDatapath {d : Datapath} {x : Option XBuf} {s : State} (hl : cellsLegal d.cells = true)
    (hu : s.phase ≠ .uninit) (hx : s.phase = .ready → x.isSome = true) : RegistersOk (writeDatapath d x s) := by
  refine ⟨⟨rfl, rfl⟩, fun _ => rfl, fun hp => absurd hp hu, fun _ => rfl, hx, ?_⟩
  rintro c ⟨⟩
  exact hl

/-- FAULT keeps the registers as they were and asks nothing more of them (R212). -/
theorem registersOk_raiseFault {s : State} (k : Cause) (n : Nat) (h : RegistersOk s) : RegistersOk (raiseFault k n s) := by
  obtain ⟨hsome, hx, -, -, -, hl⟩ := h
  exact ⟨hsome, hx, nofun, nofun, nofun, hl⟩

/-- An accepted frame leaves the frame assembler empty. -/
theorem portsOk_retire {s : State} (n : Nat) (h : PortsOk s) : PortsOk (retire n s) := ⟨h.1, .inl rfl⟩

theorem portsOk_emit {s : State} (v : Word) (h : PortsOk s) (hr : s.resp.length ≠ Config.respDepth) : PortsOk (emit v s) := by
  obtain ⟨hresp, hpend⟩ := h
  refine ⟨?_, hpend⟩
  simpa using lt_of_le_of_ne hresp hr

end Sys2Proof.Machine
end

section
/-! SUPPORT. Which words the decoder calls incomplete (30_encoding.md R77). -/

namespace Sys2Proof.Machine

theorem eq_of_decodeHeader_eq_load {w : Word} (h : decodeHeader w = .load) : w = 0x00000001 := by
  by_contra hw
  unfold decodeHeader at h
  rw [if_neg hw] at h
  split at h
  · cases h
  · split at h <;> cases h

/-- A list of eight words or more begins with eight words. -/
theorem exists_eight_of_le_length {ws : List Word} (h : 8 ≤ ws.length) :
    ∃ p0 p1 p2 p3 p4 p5 p6 p7 rest, ws = p0 :: p1 :: p2 :: p3 :: p4 :: p5 :: p6 :: p7 :: rest :=
  match ws, h with
  | p0 :: p1 :: p2 :: p3 :: p4 :: p5 :: p6 :: p7 :: rest, _ => ⟨p0, p1, p2, p3, p4, p5, p6, p7, rest, rfl⟩

/-- R77: what is incomplete is a LOAD header with fewer than its eight payload words. -/
theorem decode_eq_incomplete {ws : List Word} (h : decode ws = .incomplete) :
    ws.head? = some 0x00000001 ∧ ws.length ≤ 8 := by
  unfold decode at h
  split at h
  · cases h
  · next w rest =>
    split at h
    · cases h
    · cases h
    · cases h
    · next hl =>
      have hlen : rest.length < 8 := by
        by_contra hlong
        obtain ⟨p0, p1, p2, p3, p4, p5, p6, p7, rest', rfl⟩ := exists_eight_of_le_length (not_lt.mp hlong)
        cases h
      exact ⟨congrArg some (eq_of_decodeHeader_eq_load hl), hlen⟩

end Sys2Proof.Machine
end

section
/-! SUPPORT. Each operation on the state keeps `StateInv`. -/

namespace Sys2Proof.Machine

theorem stateInv_retire {s : State} (n : Nat) (h : StateInv s) : StateInv (retire n s) :=
  let ⟨hctrl, hreg, hports⟩ := h
  ⟨hctrl, hreg, portsOk_retire n hports⟩

theorem stateInv_emit {s : State} (v : Word) (h : StateInv s) (hr : s.resp.length ≠ Config.respDepth) :
    StateInv (emit v s) :=
  let ⟨hctrl, hreg, hports⟩ := h
  ⟨hctrl, hreg, portsOk_emit v hports hr⟩

theorem stateInv_raiseFault {s : State} {k : Cause} (n : Nat) (h : StateInv s) (hk : k ≠ .none) :
    StateInv (raiseFault k n s) := by
  obtain ⟨hctrl, hreg, hports⟩ := h
  have hround : s.round.toNat ≤ 33 := round_le_of_controlOk hctrl
  exact ⟨(controlOk_of_fault rfl).mpr ⟨hround, hk⟩, registersOk_raiseFault k n hreg, portsOk_retire n hports⟩

/-- Outside FAULT, so that there is no cause to keep, key loading starts INIT on legal cells (R151). -/
theorem stateInv_keyLoad {s : State} (key iv : Bytes16) (h : StateInv s) (hp : s.phase ≠ .fault) :
    StateInv (keyLoad key iv s) := by
  obtain ⟨hctrl, -, hports⟩ := h
  have hcause : s.cause = .none := cause_eq_none_of_controlOk hctrl hp
  exact ⟨(controlOk_of_init rfl).mpr ⟨by simp, hcause⟩,
    registersOk_writeDatapath (cellsLegal_keyCells key iv) nofun nofun, hports⟩

theorem stateInv_popTurn {s : State} (h : StateInv s) : StateInv (popTurn s) := by
  cases hr : s.resp with
  | nil => rwa [popTurn_of_nil hr]
  | cons v rest =>
    rw [popTurn_of_cons hr]
    obtain ⟨hctrl, hreg, hresp, hpend⟩ := h
    have hrest : rest.length ≤ Config.respDepth := by
      rw [hr, List.length_cons] at hresp
      omega
    exact ⟨hctrl, hreg, hrest, hpend⟩

/-- The reset state meets the invariant: UNINIT, round 0, no cause, nothing written, nothing waiting (R34). -/
theorem stateInv_reset : StateInv State.reset :=
  ⟨(controlOk_of_uninit rfl).mpr ⟨rfl, rfl⟩, ⟨⟨rfl, rfl⟩, nofun, fun _ => rfl, nofun, nofun, nofun⟩,
    Nat.zero_le _, .inl rfl⟩

theorem stateInv_resetTurn (s : State) : StateInv (resetTurn s) := stateInv_reset

end Sys2Proof.Machine
end

section
/-! SUPPORT. Each agent's move keeps `StateInv`: over what the move can do, as the `_next` lemmas list it. -/

namespace Sys2Proof.Machine

/-- The controller's step: an init round while the count is below 32, then the warm-up round into READY (R152, R153). -/
theorem controllerStep_keeps_inv {s t : State} (h : StateInv s) (ht : controllerStep s = .next t) : StateInv t := by
  obtain ⟨-, rfl⟩ | ⟨hp, d, -, -, -, hl, ⟨hk, rfl⟩ | ⟨hk, rfl⟩⟩ := controllerStep_next ht
  · exact h
  all_goals
    obtain ⟨hctrl, -, hports⟩ := h
    have hcause : s.cause = .none := cause_eq_none_of_controlOk hctrl (by simp [hp])
  · have hround : (s.round + 1).toNat ≤ 32 := by bv_omega
    exact ⟨(controlOk_of_init (by simp [hp])).mpr ⟨hround, hcause⟩,
      registersOk_writeDatapath (cellsLegal_initRoundData hl) (by simp [hp]) fun _ => rfl, hports⟩
  · exact ⟨(controlOk_of_ready rfl).mpr ⟨rfl, hcause⟩,
      registersOk_writeDatapath (cellsLegal_workRoundData hl) nofun fun _ => rfl, hports⟩

theorem execGen_keeps_inv {s t : State} (h : StateInv s) (ht : execGen s = .next t) : StateInv t := by
  obtain ⟨hp, hr, d, -, -, -, hl, rfl⟩ | ⟨-, rfl⟩ | ⟨-, rfl⟩ | ⟨-, rfl⟩ := execGen_next ht
  · obtain ⟨hctrl, -, hports⟩ := stateInv_retire 1 h
    have hround_inv : StateInv (writeDatapath (workRoundData d).next (some (workRoundData d).x) (retire 1 s)) :=
      ⟨hctrl, registersOk_writeDatapath (cellsLegal_workRoundData hl) (by simp [hp]) fun _ => rfl, hports⟩
    exact stateInv_emit _ hround_inv hr
  · exact h
  · exact stateInv_raiseFault 1 h nofun
  · exact stateInv_retire 1 h

theorem execLoad_keeps_inv {key iv : Bytes16} {s t : State} (h : StateInv s) (ht : execLoad key iv s = .next t) :
    StateInv t := by
  obtain ⟨hp, rfl⟩ | ⟨-, rfl⟩ | ⟨-, rfl⟩ := execLoad_next ht
  · exact stateInv_keyLoad key iv (stateInv_retire 9 h) (by rcases hp with hp | hp <;> simp [hp])
  · exact h
  · exact stateInv_retire 9 h

theorem execStatus_keeps_inv {s t : State} (h : StateInv s) (ht : execStatus s = .next t) : StateInv t := by
  obtain ⟨-, rfl⟩ | ⟨hr, rfl⟩ := execStatus_next ht
  · exact h
  · exact stateInv_emit _ (stateInv_retire 1 h) hr

theorem illegalHeader_keeps_inv {s t : State} (h : StateInv s) (ht : illegalHeader s = .next t) : StateInv t := by
  obtain ⟨-, rfl⟩ | ⟨-, rfl⟩ := illegalHeader_next ht
  · exact stateInv_retire 1 h
  · exact stateInv_raiseFault 1 h nofun

theorem exec_keeps_inv {i : Instr} {s t : State} (h : StateInv s) (ht : exec i s = .next t) : StateInv t := by
  cases i with
  | load key iv => exact execLoad_keeps_inv h ht
  | gen => exact execGen_keeps_inv h ht
  | status => exact execStatus_keeps_inv h ht

theorem acceptTurn_keeps_inv {s t : State} (h : StateInv s) (ht : acceptTurn s = .next t) : StateInv t := by
  obtain ⟨i, rest, -, he⟩ | ⟨w, rest, -, hi⟩ | ⟨hd, rfl⟩ | ⟨-, rfl⟩ := acceptTurn_next ht
  · exact exec_keeps_inv h he
  · exact illegalHeader_keeps_inv h hi
  · obtain ⟨hctrl, hreg, hresp, -⟩ := h
    exact ⟨hctrl, hreg, hresp, .inr (decode_eq_incomplete hd)⟩
  · exact h

theorem takeTurn_keeps_inv {turn : Turn} {s t : State} (h : StateInv s) (ht : takeTurn turn s = .next t) : StateInv t := by
  cases turn with
  | send host w =>
    obtain ⟨-, rfl⟩ := sendTurn_next ht
    exact h
  | accept => exact acceptTurn_keeps_inv h ht
  | controller => exact controllerStep_keeps_inv h ht
  | pop =>
    cases ht
    exact stateInv_popTurn h
  | reset =>
    cases ht
    exact stateInv_resetTurn s

end Sys2Proof.Machine
end

section
/-! SUPPORT. Where GEN stops: the three unwritten registers and the 0 cell (10_state.md R35; 92_eei_decisions.md D25). -/

namespace Sys2Proof.Machine

theorem withDatapath_of_unwritten_r1 {s : State} (k : Datapath → StepOutcome) (hc : s.cells ≠ none) (h1 : s.r1 = none) :
    withDatapath s k = .fault .unwrittenR1 := by
  obtain ⟨cells, hc⟩ := Option.ne_none_iff_exists'.mp hc
  simp [withDatapath, hc, h1]

theorem withDatapath_of_unwritten_r2 {s : State} (k : Datapath → StepOutcome) (hc : s.cells ≠ none) (h1 : s.r1 ≠ none)
    (h2 : s.r2 = none) : withDatapath s k = .fault .unwrittenR2 := by
  obtain ⟨cells, hc⟩ := Option.ne_none_iff_exists'.mp hc
  obtain ⟨a, h1⟩ := Option.ne_none_iff_exists'.mp h1
  simp [withDatapath, hc, h1, h2]

/-- R182: in READY with room, GEN is accepted and its round run. -/
theorem execGen_of_ready_room {s : State} (hp : s.phase = .ready) (hr : s.resp.length ≠ Config.respDepth) :
    execGen s = genRound (retire 1 s) := by
  simp [execGen, hp, hr]

end Sys2Proof.Machine
end

section
/-! SUPPORT. What a platform's step can do (10_state.md R36; 20_memory.md R65). -/

namespace Sys2Proof.Machine

/-- A platform step that answers a next platform is a step of core `i`, put back in its place. -/
theorem platformStep_next {p q : Platform} {i : Fin p.cores.length} (h : platformStep p i = .next q) :
    ∃ t, step p.cores[i] = .next t ∧ q = { cores := p.cores.set i t } := by
  unfold platformStep at h
  split at h
  · next t ht => exact ⟨t, ht, by simpa using h.symm⟩
  · cases h
  · cases h

end Sys2Proof.Machine
end

section
/-! The settled statements of 10_state.md: reset, the invariant, where a round stops, and a platform's other cores. -/

namespace Sys2Proof.Machine

/-- Settles O55: the move is taken off the schedule, which the invariant does not read, and every agent's move keeps it. -/
theorem invariantKeptByEveryStep : Obligations.InvariantKeptByEveryStep := by
  intro s t h ht
  rw [step_eq] at ht
  have hs : StateInv { s with sched := s.sched.tail } := h
  exact takeTurn_keeps_inv hs ht

/-- Settles O1: R34's list, read off the reset state. -/
theorem resetLeavesSpecValues : Obligations.ResetLeavesSpecValues :=
  ⟨rfl, rfl, rfl, rfl, rfl, rfl, rfl, rfl, rfl⟩

/-- Settles O43: the step writes one place of the list of cores. -/
theorem otherInstancesUnchanged : Obligations.OtherInstancesUnchanged := by
  intro p q i h
  obtain ⟨t, ht, rfl⟩ := platformStep_next h
  refine ⟨List.length_set, fun j hj => ?_, t, ht, ?_⟩
  · exact List.getElem?_set_ne hj.symm
  · exact List.getElem?_set_self i.isLt

/-- Settles O51: with room in READY the round is run, and it reads cells, r1 and r2 in this order, then the cells' values. -/
theorem unwrittenAndZeroCellsStop : Obligations.UnwrittenAndZeroCellsStop := by
  intro s hp hr
  have hgen : exec .gen s = genRound (retire 1 s) := execGen_of_ready_room hp hr
  rw [hgen]
  refine ⟨fun hc => ?_, fun hc h1 => ?_, fun hc h1 h2 => ?_, fun cells hc h1 h2 hz => ?_⟩
  · exact withDatapath_of_unwritten _ hc
  · exact withDatapath_of_unwritten_r1 _ hc h1
  · exact withDatapath_of_unwritten_r2 _ hc h1 h2
  · obtain ⟨a, h1⟩ := Option.ne_none_iff_exists'.mp h1
    obtain ⟨b, h2⟩ := Option.ne_none_iff_exists'.mp h2
    exact withDatapath_of_zero_cell _ hc h1 h2 ((cellsLegal_eq_false_iff cells).mpr hz)

/-- Settles O54, part by part in `stateInv_reset`. -/
theorem invariantHoldsAtReset : Obligations.InvariantHoldsAtReset := stateInv_reset

end Sys2Proof.Machine
end

section
/-! SUPPORT. The words a frame takes from the front of the command stream (30_encoding.md R72, R76), and what each
move does to the command stream `frameWords`. -/

namespace Sys2Proof.Machine

/-- The words after a decoded frame are the stream without the words of that frame's encoding. -/
theorem drop_length_encode_of_decode {ws rest : List Word} {i : Instr} (h : decode ws = .frame i rest) :
    ws.drop (encode i).length = rest := by
  unfold decode at h
  split at h
  · cases h
  · split at h
    · cases h; rfl
    · cases h; rfl
    · cases h
    · split at h
      · cases h; rfl
      · cases h

/-- R76: an illegal header is a frame of one word. -/
theorem eq_cons_of_decode_illegal {ws rest : List Word} {w : Word} (h : decode ws = .illegal w rest) : ws = w :: rest := by
  unfold decode at h
  split at h
  · cases h
  · split at h
    · cases h
    · cases h
    · cases h; rfl
    · split at h <;> cases h

theorem frameWords_popTurn (s : State) : frameWords (popTurn s) = frameWords s := by simp [frameWords]

/-- The controller takes no command word. -/
theorem controllerStep_frameWords {s t : State} (h : controllerStep s = .next t) : frameWords t = frameWords s := by
  obtain ⟨-, rfl⟩ | ⟨-, d, -, -, -, -, ⟨-, rfl⟩ | ⟨-, rfl⟩⟩ := controllerStep_next h <;> rfl

/-- R180: a command's acceptance holds its frame or takes exactly that frame's words. -/
theorem exec_frameWords {i : Instr} {s t : State} (h : exec i s = .next t) :
    frameWords t = frameWords s ∨ frameWords t = (frameWords s).drop (encode i).length := by
  cases i with
  | load key iv =>
    obtain ⟨-, rfl⟩ | ⟨-, rfl⟩ | ⟨-, rfl⟩ := execLoad_next h
    · exact .inr rfl
    · exact .inl rfl
    · exact .inr rfl
  | gen =>
    obtain ⟨-, -, d, -, -, -, -, rfl⟩ | ⟨-, rfl⟩ | ⟨-, rfl⟩ | ⟨-, rfl⟩ := execGen_next h
    · exact .inr rfl
    · exact .inl rfl
    · exact .inr rfl
    · exact .inr rfl
  | status =>
    obtain ⟨-, rfl⟩ | ⟨-, rfl⟩ := execStatus_next h
    · exact .inl rfl
    · exact .inr rfl

/-- R184: an illegal header is never held, so its one word is taken in every phase. -/
theorem illegalHeader_frameWords {s t : State} (h : illegalHeader s = .next t) : frameWords t = (frameWords s).drop 1 := by
  obtain ⟨-, rfl⟩ | ⟨-, rfl⟩ := illegalHeader_next h <;> rfl

/-- R180, R77: an acceptance step leaves the command stream as it was, or takes the frame or illegal header at its front. -/
theorem acceptTurn_frameWords {s t : State} (h : acceptTurn s = .next t) :
    frameWords t = frameWords s ∨
    (∃ i rest, decode (frameWords s) = .frame i rest ∧ frameWords t = rest) ∨
    (∃ w rest, decode (frameWords s) = .illegal w rest ∧ frameWords t = rest) := by
  obtain ⟨i, rest, hd, he⟩ | ⟨w, rest, hd, hi⟩ | ⟨-, rfl⟩ | ⟨-, rfl⟩ := acceptTurn_next h
  · obtain hheld | htaken := exec_frameWords he
    · exact .inl hheld
    · exact .inr (.inl ⟨i, rest, hd, htaken.trans (drop_length_encode_of_decode hd)⟩)
  · have hcons : frameWords s = w :: rest := eq_cons_of_decode_illegal hd
    exact .inr (.inr ⟨w, rest, hd, by rw [illegalHeader_frameWords hi, hcons, List.drop_one, List.tail_cons]⟩)
  · exact .inl (List.append_nil _)
  · exact .inl rfl

/-- R59: over any move but a reset the command stream is as it was, or gains one sent word at its end, or loses the frame or
illegal header at its front. -/
theorem takeTurn_frameWords {turn : Turn} {s t : State} (hreset : turn ≠ .reset) (h : takeTurn turn s = .next t) :
    (∃ host w, turn = .send host w ∧ frameWords t = frameWords s ++ [w]) ∨
    frameWords t = frameWords s ∨
    (turn = .accept ∧
      ((∃ i rest, decode (frameWords s) = .frame i rest ∧ frameWords t = rest) ∨
        (∃ w rest, decode (frameWords s) = .illegal w rest ∧ frameWords t = rest))) := by
  cases turn with
  | send host w =>
    obtain ⟨-, rfl⟩ := sendTurn_next h
    exact .inl ⟨host, w, rfl, (List.append_assoc s.pend s.port [w]).symm⟩
  | accept =>
    obtain hsame | htaken := acceptTurn_frameWords h
    · exact .inr (.inl hsame)
    · exact .inr (.inr ⟨rfl, htaken⟩)
  | controller => exact .inr (.inl (controllerStep_frameWords h))
  | pop =>
    cases h
    exact .inr (.inl (frameWords_popTurn s))
  | reset => exact absurd rfl hreset

/-- A word from the host that may drive the port joins the port's end (30_encoding.md R70; log entries 4, 7). -/
theorem sendTurn_of_owner {host : Nat} {s : State} (w : Word) (ho : s.owner = none ∨ s.owner = some host) :
    sendTurn host w s = .next { s with port := s.port ++ [w], owner := some host } :=
  if_pos ho

end Sys2Proof.Machine
end

section
/-! SUPPORT. The controller's step from what it reads (43_controller.md R155), and what keeps the controller and the datapath as
they are. -/

namespace Sys2Proof.Machine

/-- R155: outside INIT the controller has no step. -/
theorem controllerStep_of_not_init {s : State} (hp : s.phase ≠ .init) : controllerStep s = .next s := by
  unfold controllerStep
  split
  · contradiction
  all_goals rfl

/-- R152: below round 32 the controller's step is an init round. -/
theorem controllerStep_eq_initRound {s : State} (hp : s.phase = .init) (hk : s.round.toNat < 32) :
    controllerStep s = initRound s := by
  simp [controllerStep, hp, hk, Config.initRounds]

/-- R153: at round 32 the controller's step is the warm-up round. -/
theorem controllerStep_eq_warmupRound {s : State} (hp : s.phase = .init) (hk : s.round.toNat = 32) :
    controllerStep s = warmupRound s := by
  simp [controllerStep, hp, hk, Config.initRounds]

theorem sameCore_refl (s : State) : SameCore s s := ⟨⟨rfl, rfl, rfl, rfl, rfl⟩, rfl, rfl⟩

theorem sameCore_popTurn (s : State) : SameCore s (popTurn s) := by simp [SameCore, SameGenerator]

/-- The same write to the datapath makes states agree that agree on the controller. -/
theorem sameCore_writeDatapath {s s' : State} (d : Datapath) (x : Option XBuf) (hp : s.phase = s'.phase)
    (hr : s.round = s'.round) (hcause : s.cause = s'.cause) : SameCore (writeDatapath d x s) (writeDatapath d x s') :=
  ⟨⟨hp, hr, rfl, rfl, rfl⟩, hcause, rfl⟩

theorem execLoad_of_init (key iv : Bytes16) {s : State} (hp : s.phase = .init) : execLoad key iv s = .next s := by
  simp [execLoad, hp, holdFrame]

theorem execGen_of_init {s : State} (hp : s.phase = .init) : execGen s = .next s := by
  simp [execGen, hp, holdFrame]

/-- R181, R182, R183: in INIT a LOAD and a GEN are held, and a STATUS writes the ports alone. -/
theorem exec_keeps_core_of_init {i : Instr} {s t : State} (hp : s.phase = .init) (h : exec i s = .next t) : SameCore s t := by
  cases i with
  | load key iv =>
    cases (execLoad_of_init key iv hp).symm.trans h
    exact sameCore_refl s
  | gen =>
    cases (execGen_of_init hp).symm.trans h
    exact sameCore_refl s
  | status =>
    obtain ⟨-, rfl⟩ | ⟨-, rfl⟩ := execStatus_next h
    · exact sameCore_refl t
    · exact sameCore_refl s

/-- In INIT, with no illegal header at the front of the command stream, an acceptance step writes the ports alone. -/
theorem acceptTurn_keeps_core_of_init {s t : State} (hp : s.phase = .init)
    (hlegal : ∀ w rest, decode (s.pend ++ s.port) ≠ .illegal w rest) (h : acceptTurn s = .next t) : SameCore s t := by
  obtain ⟨i, rest, -, he⟩ | ⟨w, rest, hd, -⟩ | ⟨-, rfl⟩ | ⟨-, rfl⟩ := acceptTurn_next h
  · exact exec_keeps_core_of_init hp he
  · exact absurd hd (hlegal w rest)
  · exact sameCore_refl s
  · exact sameCore_refl t

/-- R60: in INIT, with no illegal header at the front of the command stream, a host step of any kind writes the ports alone. -/
theorem takeTurn_keeps_core_of_init {turn : Turn} {s t : State} (hp : s.phase = .init) (hcontroller : turn ≠ .controller)
    (hreset : turn ≠ .reset) (hlegal : ∀ w rest, decode (s.pend ++ s.port) ≠ .illegal w rest)
    (h : takeTurn turn s = .next t) : SameCore s t := by
  cases turn with
  | send host w =>
    obtain ⟨-, rfl⟩ := sendTurn_next h
    exact sameCore_refl s
  | accept => exact acceptTurn_keeps_core_of_init hp hlegal h
  | controller => exact absurd rfl hcontroller
  | pop =>
    cases h
    exact sameCore_popTurn s
  | reset => exact absurd rfl hreset

/-- R60: the controller's step depends on the controller and the datapath alone. -/
theorem controllerStep_sameCore {s s' t : State} (hsame : SameCore s s') (h : controllerStep s = .next t) :
    ∃ t', controllerStep s' = .next t' ∧ SameCore t t' := by
  obtain ⟨⟨hphase, hround, hcells, hr1, hr2⟩, hcause, -⟩ := id hsame
  obtain ⟨hp, rfl⟩ | ⟨hp, d, hc, h1, h2, hl, hcase⟩ := controllerStep_next h
  · exact ⟨s', controllerStep_of_not_init (hphase ▸ hp), hsame⟩
  · have hread (k : Datapath → StepOutcome) : withDatapath s' k = k d :=
      withDatapath_of_legal k (hcells ▸ hc) (hr1 ▸ h1) (hr2 ▸ h2) hl
    obtain ⟨hk, rfl⟩ | ⟨hk, rfl⟩ := hcase
    · exact ⟨_, (controllerStep_eq_initRound (hphase ▸ hp) (hround ▸ hk)).trans (hread _),
        sameCore_writeDatapath _ _ hphase (congrArg (· + 1) hround) hcause⟩
    · exact ⟨_, (controllerStep_eq_warmupRound (hphase ▸ hp) (hround ▸ hk)).trans (hread _),
        sameCore_writeDatapath _ _ rfl rfl hcause⟩

end Sys2Proof.Machine
end

section
/-! The settled statements of 20_memory.md: the order of the command words, and what the host's steps leave alone in INIT. -/

namespace Sys2Proof.Machine

/-- Settles O40: a send by the owner's equation, and every move by what it does to `frameWords`, which reads
no schedule. -/
theorem commandWordsTakenInOrder : Obligations.CommandWordsTakenInOrder := by
  refine ⟨fun s host w rest hs ho => ?_, fun s t ht hreset => ?_⟩
  · rw [step_of_cons hs]
    exact sendTurn_of_owner w ho
  · rw [step_eq] at ht
    have hwords := takeTurn_frameWords (s := { s with sched := s.sched.tail }) hreset ht
    exact hwords

/-- Settles O42: the step takes its move off the schedule, which `SameCore` does not compare. -/
theorem hostStepsKeepDatapathInInit : Obligations.HostStepsKeepDatapathInInit := by
  refine ⟨fun s t hp ht hcontroller hreset hlegal => ?_, fun s s' t => controllerStep_sameCore⟩
  rw [step_eq] at ht
  have hs : SameCore { s with sched := s.sched.tail } t := takeTurn_keeps_core_of_init hp hcontroller hreset hlegal ht
  exact hs

end Sys2Proof.Machine
end

section
/-! SUPPORT. R73's packing, both ways: sixteen bytes in four words, most significant byte first. -/

namespace Sys2Proof.Machine

/-- The four bytes of a word put together from four bytes. -/
theorem extractLsb'_append_bytes (a b c d : Byte) :
    (a ++ b ++ c ++ d).extractLsb' 24 8 = a ∧ (a ++ b ++ c ++ d).extractLsb' 16 8 = b ∧
    (a ++ b ++ c ++ d).extractLsb' 8 8 = c ∧ (a ++ b ++ c ++ d).extractLsb' 0 8 = d := by
  refine ⟨?_, ?_, ?_, BitVec.extractLsb'_append_eq_right⟩
  · rw [BitVec.extractLsb'_append_eq_of_le (by decide), BitVec.extractLsb'_append_eq_of_le (by decide)]
    exact BitVec.extractLsb'_append_eq_left
  · rw [BitVec.extractLsb'_append_eq_of_le (by decide), BitVec.extractLsb'_append_eq_of_le (by decide)]
    exact BitVec.extractLsb'_append_eq_right
  · rw [BitVec.extractLsb'_append_eq_of_le (by decide)]
    exact BitVec.extractLsb'_append_eq_right

/-- A word is its four bytes put together. -/
theorem append_bytes_eq (w : Word) :
    w.extractLsb' 24 8 ++ w.extractLsb' 16 8 ++ w.extractLsb' 8 8 ++ w.extractLsb' 0 8 = w := by
  rw [BitVec.extractLsb'_append_extractLsb'_eq_extractLsb' (by decide : 24 = 16 + 8),
    BitVec.extractLsb'_append_extractLsb'_eq_extractLsb' (by decide : 16 = 8 + 8),
    BitVec.extractLsb'_append_extractLsb'_eq_extractLsb' (by decide : 8 = 0 + 8)]
  exact BitVec.extractLsb'_eq_self

/-- Byte `k` of word `j` is byte `4 * j + k`. -/
theorem extractLsb'_packWord (b : Bytes16) (j k : Fin 4) :
    (packWord b j).extractLsb' (24 - 8 * k.val) 8 = b[4 * j.val + k.val]'(by omega) := by
  obtain ⟨h0, h1, h2, h3⟩ := extractLsb'_append_bytes (b[4 * j.val]'(by omega)) (b[4 * j.val + 1]'(by omega))
    (b[4 * j.val + 2]'(by omega)) (b[4 * j.val + 3]'(by omega))
  match k with
  | 0 => exact h0
  | 1 => exact h1
  | 2 => exact h2
  | 3 => exact h3

/-- Byte `i` is byte `i % 4` of word `i / 4`. -/
theorem extractLsb'_packWord_div (b : Bytes16) (i : Fin 16) :
    (packWord b ⟨i.val / 4, by omega⟩).extractLsb' (24 - 8 * (i.val % 4)) 8 = b[i] := by
  have h := extractLsb'_packWord b ⟨i.val / 4, by omega⟩ ⟨i.val % 4, by omega⟩
  simpa [Nat.div_add_mod] using h

theorem getElem_unpackBytes (p : Vector Word 4) {i : Nat} (hi : i < 16) :
    (unpackBytes p)[i] = (p[i / 4]'(by omega)).extractLsb' (24 - 8 * (i % 4)) 8 := by
  simp [unpackBytes, unpackByte]

/-- R73: unpacking undoes packing. -/
theorem unpackBytes_ofFn_packWord (b : Bytes16) : unpackBytes (Vector.ofFn (packWord b)) = b := by
  ext1 i hi
  rw [getElem_unpackBytes, Vector.getElem_ofFn]
  exact extractLsb'_packWord_div b ⟨i, hi⟩

/-- R73: packing undoes unpacking. -/
theorem packWord_unpackBytes (p : Vector Word 4) (j : Fin 4) : packWord (unpackBytes p) j = p[j] := by
  have hdiv (k : Nat) (hk : k < 4) : (4 * j.val + k) / 4 = j.val := by omega
  simpa [packWord, getElem_unpackBytes, hdiv] using append_bytes_eq p[j]

theorem packBytes_unpackBytes (p0 p1 p2 p3 : Word) : packBytes (unpackBytes #v[p0, p1, p2, p3]) = [p0, p1, p2, p3] := by
  simp only [packBytes, packWord_unpackBytes]
  rfl

end Sys2Proof.Machine
end

section
/-! SUPPORT. A header word by its value and by its two fields (30_encoding.md R71, R76, R82). -/

namespace Sys2Proof.Machine

theorem decodeHeader_eq_load_iff (w : Word) : decodeHeader w = .load ↔ w = 0x00000001 :=
  ⟨eq_of_decodeHeader_eq_load, fun h => h ▸ rfl⟩

theorem decodeHeader_eq_gen_iff (w : Word) : decodeHeader w = .gen ↔ w = 0x00000002 := by
  refine ⟨fun h => ?_, fun h => h ▸ rfl⟩
  unfold decodeHeader at h
  split_ifs at h with h1 h2 h3
  exact h2

theorem decodeHeader_eq_status_iff (w : Word) : decodeHeader w = .status ↔ w = 0x00000003 := by
  refine ⟨fun h => ?_, fun h => h ▸ rfl⟩
  unfold decodeHeader at h
  split_ifs at h with h1 h2 h3
  exact h3

/-- R82: ILLEGAL is what is none of the other three. -/
theorem decodeHeader_eq_illegal_iff (w : Word) :
    decodeHeader w = .illegal ↔ w ≠ 0x00000001 ∧ w ≠ 0x00000002 ∧ w ≠ 0x00000003 := by
  rw [ne_eq, ← decodeHeader_eq_load_iff, ne_eq, ← decodeHeader_eq_gen_iff, ne_eq, ← decodeHeader_eq_status_iff]
  cases decodeHeader w <;> decide

/-- R71: a header is an opcode alone exactly if that is its opcode field and its reserved field is 0. -/
theorem header_eq_iff (w : Word) (opc : BitVec 8) : w = opc.setWidth 32 ↔ opcField w = opc ∧ rsvField w = 0 := by
  have hopc : (opcField w).toNat = w.toNat % 2 ^ 8 := by simp [opcField]
  have hrsv : (rsvField w).toNat = w.toNat / 2 ^ 8 := by
    simp [rsvField, Nat.shiftRight_eq_div_pow]
    omega
  simp only [← BitVec.toNat_inj, hopc, hrsv, BitVec.toNat_setWidth, BitVec.ofNat_eq_ofNat, BitVec.toNat_ofNat]
  omega

/-- R76: a header is illegal exactly if its opcode is unassigned or its reserved field is not 0. -/
theorem decodeHeader_eq_illegal_iff_fields (w : Word) :
    decodeHeader w = .illegal ↔ (opcField w ≠ 0x01 ∧ opcField w ≠ 0x02 ∧ opcField w ≠ 0x03) ∨ rsvField w ≠ 0 := by
  have h1 : w = 0x00000001 ↔ opcField w = 0x01 ∧ rsvField w = 0 := header_eq_iff w 0x01
  have h2 : w = 0x00000002 ↔ opcField w = 0x02 ∧ rsvField w = 0 := header_eq_iff w 0x02
  have h3 : w = 0x00000003 ↔ opcField w = 0x03 ∧ rsvField w = 0 := header_eq_iff w 0x03
  rw [decodeHeader_eq_illegal_iff, ne_eq, h1, ne_eq, h2, ne_eq, h3]
  tauto

end Sys2Proof.Machine
end

section
/-! SUPPORT. What `decode` answers for each head a word stream can have, and which words have each answer
(30_encoding.md R71..R73, R76, R77, R82). -/

namespace Sys2Proof.Machine

theorem decode_gen_cons (rest : List Word) : decode (0x00000002 :: rest) = .frame .gen rest := rfl

theorem decode_status_cons (rest : List Word) : decode (0x00000003 :: rest) = .frame .status rest := rfl

theorem decode_load_cons (p0 p1 p2 p3 p4 p5 p6 p7 : Word) (rest : List Word) :
    decode (0x00000001 :: p0 :: p1 :: p2 :: p3 :: p4 :: p5 :: p6 :: p7 :: rest) =
      .frame (.load (unpackBytes #v[p0, p1, p2, p3]) (unpackBytes #v[p4, p5, p6, p7])) rest := rfl

/-- R76: no payload is illegal. -/
theorem decode_load_payload {payload : List Word} (h : payload.length = 8) (rest : List Word) :
    ∃ key iv, decode (0x00000001 :: (payload ++ rest)) = .frame (.load key iv) rest := by
  obtain ⟨p0, p1, p2, p3, p4, p5, p6, p7, more, rfl⟩ := exists_eight_of_le_length h.ge
  obtain rfl : more = [] := by simpa using h
  exact ⟨_, _, decode_load_cons p0 p1 p2 p3 p4 p5 p6 p7 rest⟩

/-- R77: a LOAD header with fewer than its eight payload words is incomplete. -/
theorem decode_partial_load {payload : List Word} (h : payload.length < 8) :
    decode (0x00000001 :: payload) = .incomplete := by
  have hload : decodeHeader 0x00000001 = .load := rfl
  simp only [decode, hload]
  split
  · simp only [List.length_cons] at h
    omega
  · rfl

theorem decode_illegal_cons {w : Word} (h : decodeHeader w = .illegal) (rest : List Word) :
    decode (w :: rest) = .illegal w rest := by
  simp [decode, h]

theorem decodeHeader_eq_illegal_of_decode {ws rest : List Word} {w : Word} (h : decode ws = .illegal w rest) :
    decodeHeader w = .illegal := by
  unfold decode at h
  split at h
  · cases h
  · split at h
    · cases h
    · cases h
    · next hw =>
      cases h
      exact hw
    · split at h <;> cases h

theorem eq_nil_of_decode_empty {ws : List Word} (h : decode ws = .empty) : ws = [] := by
  unfold decode at h
  split at h
  · rfl
  · split at h
    · cases h
    · cases h
    · cases h
    · split at h <;> cases h

/-- R71, R72: the words of a command, whatever follows them, decode to it. -/
theorem decode_encode_append (i : Instr) (rest : List Word) : decode (encode i ++ rest) = .frame i rest := by
  cases i with
  | load key iv =>
    have hkey : unpackBytes #v[packWord key 0, packWord key 1, packWord key 2, packWord key 3] = key :=
      unpackBytes_ofFn_packWord key
    have hiv : unpackBytes #v[packWord iv 0, packWord iv 1, packWord iv 2, packWord iv 3] = iv :=
      unpackBytes_ofFn_packWord iv
    refine (decode_load_cons _ _ _ _ _ _ _ _ rest).trans ?_
    rw [hkey, hiv]
  | gen => exact decode_gen_cons rest
  | status => exact decode_status_cons rest

/-- R71, R72, R82: what decodes to a command is its words and what follows them. -/
theorem eq_encode_append_of_decode {ws rest : List Word} {i : Instr} (h : decode ws = .frame i rest) :
    ws = encode i ++ rest := by
  unfold decode at h
  split at h
  · cases h
  · next w ws =>
    split at h
    · next hw =>
      cases h
      rw [(decodeHeader_eq_gen_iff w).mp hw]
      rfl
    · next hw =>
      cases h
      rw [(decodeHeader_eq_status_iff w).mp hw]
      rfl
    · cases h
    · next hw =>
      split at h
      · cases h
        rw [(decodeHeader_eq_load_iff w).mp hw, encode, packBytes_unpackBytes, packBytes_unpackBytes]
        rfl
      · cases h

/-- What follows a command does not change that it is read. -/
theorem decode_append_of_frame {ws rest : List Word} {i : Instr} (h : decode ws = .frame i rest) (more : List Word) :
    decode (ws ++ more) = .frame i (rest ++ more) := by
  rw [eq_encode_append_of_decode h, List.append_assoc]
  exact decode_encode_append i (rest ++ more)

/-- What `decodeTableWord` reads is the frame at the head of the words that are placed. -/
theorem decode_tableWords {nbits w : Nat} {i : Instr} (h : decodeTableWord nbits w = some i) :
    ∃ rest, decode (tableWords nbits w) = .frame i rest := by
  unfold decodeTableWord at h
  split at h
  · next rest hd =>
    cases h
    exact ⟨rest, hd⟩
  all_goals cases h

end Sys2Proof.Machine
end

section
/-! SUPPORT. An acceptance step by what stands at the front of the command stream (44_host_commands.md R180, R183, R184). -/

namespace Sys2Proof.Machine

theorem acceptTurn_of_frame {s : State} {i : Instr} {rest : List Word} (h : decode (s.pend ++ s.port) = .frame i rest) :
    acceptTurn s = exec i s := by
  simp [acceptTurn, frameWords, h]

theorem acceptTurn_of_illegal {s : State} {w : Word} {rest : List Word}
    (h : decode (s.pend ++ s.port) = .illegal w rest) : acceptTurn s = illegalHeader s := by
  simp [acceptTurn, frameWords, h]

theorem acceptTurn_of_incomplete {s : State} (h : decode (s.pend ++ s.port) = .incomplete) :
    acceptTurn s = .next { s with pend := s.pend ++ s.port, port := [] } := by
  simp [acceptTurn, frameWords, h]

/-- R184, R211: outside FAULT an illegal header raises ILLEGAL_COMMAND. -/
theorem illegalHeader_of_not_fault {s : State} (hp : s.phase ≠ .fault) :
    illegalHeader s = .next (raiseFault .illegalCommand 1 s) := by
  unfold illegalHeader
  split
  · contradiction
  all_goals rfl

/-- R183: with room in the FIFO a STATUS is accepted in every phase. -/
theorem execStatus_of_room {s : State} (hr : s.resp.length ≠ Config.respDepth) :
    execStatus s = .next (emit (statusWord s) (retire 1 s)) :=
  if_neg hr

end Sys2Proof.Machine
end

section
/-! SUPPORT. A LOAD's payload and its buffers (30_encoding.md R73). -/

namespace Sys2Proof.Machine

/-- A LOAD's payload as one vector: the key's four words, then the IV's (R73). -/
def loadPayload (key iv : Bytes16) : Vector Word 8 := Vector.ofFn (packWord key) ++ Vector.ofFn (packWord iv)

theorem encode_load (key iv : Bytes16) : encode (.load key iv) = 0x00000001 :: (loadPayload key iv).toList := rfl

theorem loadPayload_key (key iv : Bytes16) (j : Fin 4) : (loadPayload key iv)[j.val]'(by omega) = packWord key j :=
  (Vector.getElem_append_left j.isLt).trans (Vector.getElem_ofFn _)

theorem loadPayload_iv (key iv : Bytes16) (j : Fin 4) : (loadPayload key iv)[4 + j.val]'(by omega) = packWord iv j := by
  refine (Vector.getElem_append_right (by omega) (by omega)).trans ?_
  simp

theorem mkLoad_eq_none_iff (key iv : List Byte) : mkLoad key iv = none ↔ key.length ≠ 16 ∨ iv.length ≠ 16 := by
  unfold mkLoad
  split
  · next h => simp [h]
  · next h => exact iff_of_true rfl (not_and_or.mp h)

theorem mkLoad_toList (key iv : Bytes16) : mkLoad key.toList iv.toList = some (.load key iv) := by
  simp [mkLoad, Vector.toList]

end Sys2Proof.Machine
end

section
/-! SUPPORT. The whole-stream decoder over the words of one frame, and of several (30_encoding.md R76, R77). -/

namespace Sys2Proof.Machine

theorem decodeStreamFrom_nil (fuel : Nat) : decodeStreamFrom fuel [] = .ok [] := by
  cases fuel <;> rfl

theorem decodeStreamFrom_incomplete {ws : List Word} (h : decode ws = .incomplete) (fuel : Nat) :
    decodeStreamFrom (fuel + 1) ws = .error .truncated := by
  simp [decodeStreamFrom, h]

/-- The decoder takes a frame's words from the front of a stream as that frame. -/
theorem decodeStreamFrom_encodeFrame {f : Frame} (hf : ∀ w, f = .illegal w → decodeHeader w = .illegal) (fuel : Nat)
    (rest : List Word) :
    decodeStreamFrom (fuel + 1) (encodeFrame f ++ rest) = (decodeStreamFrom fuel rest).map (f :: ·) := by
  cases f with
  | command i =>
    simp only [encodeFrame, decodeStreamFrom]
    rw [decode_encode_append]
  | illegal w =>
    simp only [encodeFrame, decodeStreamFrom, List.singleton_append]
    rw [decode_illegal_cons (hf w rfl)]

theorem decodeStreamFrom_flatMap {frames : List Frame} (hf : ∀ w, Frame.illegal w ∈ frames → decodeHeader w = .illegal)
    (fuel : Nat) (rest : List Word) :
    decodeStreamFrom (fuel + frames.length) (frames.flatMap encodeFrame ++ rest) =
      (decodeStreamFrom fuel rest).map (frames ++ ·) := by
  induction frames with
  | nil => cases h : decodeStreamFrom fuel rest <;> simp [Except.map, h]
  | cons f frames ih =>
    have hfirst (w : Word) (h : f = .illegal w) : decodeHeader w = .illegal := hf w (h ▸ List.mem_cons_self)
    have hrest := ih fun w h => hf w (List.mem_cons_of_mem f h)
    rw [List.flatMap_cons, List.append_assoc, List.length_cons, ← Nat.add_assoc, decodeStreamFrom_encodeFrame hfirst, hrest]
    cases decodeStreamFrom fuel rest <;> rfl

theorem length_encodeFrame_pos (f : Frame) : 0 < (encodeFrame f).length := by
  cases f with
  | command i => exact List.length_pos_iff.mpr (encode_ne_nil i)
  | illegal w => exact Nat.one_pos

/-- Every frame takes at least one word. -/
theorem length_le_length_flatMap_encodeFrame (frames : List Frame) :
    frames.length ≤ (frames.flatMap encodeFrame).length := by
  induction frames with
  | nil => exact Nat.le_refl 0
  | cons f frames ih =>
    have hf := length_encodeFrame_pos f
    simp only [List.flatMap_cons, List.length_append, List.length_cons]
    omega

/-- The stream's length is fuel enough for its frames, and for `rest` after them. -/
theorem decodeStream_flatMap {frames : List Frame} (hf : ∀ w, Frame.illegal w ∈ frames → decodeHeader w = .illegal)
    (rest : List Word) : ∃ fuel, rest.length ≤ fuel ∧
      decodeStream (frames.flatMap encodeFrame ++ rest) = (decodeStreamFrom fuel rest).map (frames ++ ·) := by
  have hframes := length_le_length_flatMap_encodeFrame frames
  obtain ⟨spare, hspare⟩ := Nat.exists_eq_add_of_le hframes
  refine ⟨spare + rest.length, Nat.le_add_left _ _, ?_⟩
  have hlen : (frames.flatMap encodeFrame ++ rest).length = spare + rest.length + frames.length := by
    rw [List.length_append]
    omega
  rw [decodeStream, hlen, decodeStreamFrom_flatMap hf]

/-- A result of `Except.map` comes from a result. -/
theorem exists_of_map_eq_ok {ε α β : Type} {f : α → β} {x : Except ε α} {b : β} (h : x.map f = .ok b) :
    ∃ a, x = .ok a ∧ f a = b := by
  cases x with
  | error e => cases h
  | ok a => exact ⟨a, rfl, Except.ok.inj h⟩

/-- `ws` are the words of `frames`, whose illegal frames are illegal headers. -/
def CutsInto (ws : List Word) (frames : List Frame) : Prop :=
  ws = frames.flatMap encodeFrame ∧ ∀ w, Frame.illegal w ∈ frames → decodeHeader w = .illegal

theorem cutsInto_nil : CutsInto [] [] := ⟨rfl, by simp⟩

theorem cutsInto_cons {f : Frame} {rest : List Word} {frames : List Frame}
    (hf : ∀ w, f = .illegal w → decodeHeader w = .illegal) (h : CutsInto rest frames) :
    CutsInto (encodeFrame f ++ rest) (f :: frames) := by
  obtain ⟨hrest, hlegal⟩ := h
  refine ⟨by rw [hrest, List.flatMap_cons], fun w hw => ?_⟩
  obtain hw | hw := List.mem_cons.mp hw
  · exact hf w hw.symm
  · exact hlegal w hw

theorem length_rest_le_of_encodeFrame {f : Frame} {rest : List Word} {fuel : Nat}
    (h : (encodeFrame f ++ rest).length ≤ fuel + 1) : rest.length ≤ fuel := by
  have hpos := length_encodeFrame_pos f
  rw [List.length_append] at h
  omega

/-- With fuel for every word, what the decoder gives are the stream's frames. -/
theorem cutsInto_of_decodeStreamFrom {fuel : Nat} {ws : List Word} {frames : List Frame} (hfuel : ws.length ≤ fuel)
    (h : decodeStreamFrom fuel ws = .ok frames) : CutsInto ws frames := by
  induction fuel generalizing ws frames with
  | zero =>
    cases h
    exact List.length_eq_zero_iff.mp (Nat.le_zero.mp hfuel) ▸ cutsInto_nil
  | succ fuel ih =>
    unfold decodeStreamFrom at h
    split at h
    · next hd =>
      cases h
      exact eq_nil_of_decode_empty hd ▸ cutsInto_nil
    · cases h
    · next w rest hd =>
      obtain ⟨more, hmore, rfl⟩ := exists_of_map_eq_ok h
      obtain rfl : ws = encodeFrame (.illegal w) ++ rest := eq_cons_of_decode_illegal hd
      have hillegal (v : Word) (hv : Frame.illegal w = .illegal v) : decodeHeader v = .illegal :=
        Frame.illegal.inj hv ▸ decodeHeader_eq_illegal_of_decode hd
      exact cutsInto_cons hillegal (ih (length_rest_le_of_encodeFrame hfuel) hmore)
    · next i rest hd =>
      obtain ⟨more, hmore, rfl⟩ := exists_of_map_eq_ok h
      obtain rfl : ws = encodeFrame (.command i) ++ rest := eq_encode_append_of_decode hd
      exact cutsInto_cons (by simp) (ih (length_rest_le_of_encodeFrame hfuel) hmore)

end Sys2Proof.Machine
end

section
/-! SUPPORT. The status word as a number, and its fields (30_encoding.md R75). -/

namespace Sys2Proof.Machine

/-- R75: the three fields do not overlap, so their sum is the word. -/
theorem statusWord_toNat (s : State) : (statusWord s).toNat =
    2 ^ 16 * (causeCode s.cause).toNat + (2 ^ 8 * s.round.toNat + (phaseCode s.phase).toNat) := by
  have hc := (causeCode s.cause).isLt
  have hr := s.round.isLt
  have hp := (phaseCode s.phase).isLt
  have hlow : 2 ^ 8 * s.round.toNat + (phaseCode s.phase).toNat = 2 ^ 8 * s.round.toNat ||| (phaseCode s.phase).toNat :=
    Nat.two_pow_add_eq_or_of_lt (by omega) _
  rw [Nat.two_pow_add_eq_or_of_lt (by omega), hlow, ← Nat.or_assoc]
  simp only [statusWord, BitVec.toNat_or, BitVec.toNat_shiftLeft, BitVec.toNat_setWidth, Nat.shiftLeft_eq]
  congr 2 <;> omega

theorem toNat_extractLsb'_statusWord (s : State) (start len : Nat) : ((statusWord s).extractLsb' start len).toNat =
    (2 ^ 16 * (causeCode s.cause).toNat + (2 ^ 8 * s.round.toNat + (phaseCode s.phase).toNat)) / 2 ^ start % 2 ^ len := by
  rw [BitVec.extractLsb'_toNat, Nat.shiftRight_eq_div_pow, statusWord_toNat]

theorem statusPhase_statusWord (s : State) : statusPhase (statusWord s) = phaseCode s.phase := by
  have hp := (phaseCode s.phase).isLt
  refine BitVec.eq_of_toNat_eq ((toNat_extractLsb'_statusWord s 0 2).trans ?_)
  omega

/-- The status word by its three fields alone. -/
theorem statusWord_eq {s : State} {p : Phase} {r : BitVec 6} {c : Cause} (hp : s.phase = p) (hr : s.round = r)
    (hc : s.cause = c) :
    statusWord s = BitVec.ofNat 32 (2 ^ 16 * (causeCode c).toNat + (2 ^ 8 * r.toNat + (phaseCode p).toNat)) := by
  rw [← hp, ← hr, ← hc, ← statusWord_toNat, BitVec.ofNat_toNat, BitVec.setWidth_eq]

theorem phaseCode_eq_init_iff (p : Phase) : phaseCode p = phaseCode .init ↔ p = .init := by
  cases p <;> decide

/-- R81: WAIT_READY goes round exactly at a status word of INIT. -/
theorem waitAgain_statusWord (s : State) : waitAgain (statusWord s) = true ↔ s.phase = .init := by
  rw [waitAgain, statusPhase_statusWord, decide_eq_true_iff, phaseCode_eq_init_iff]

theorem waitAgain_statusWord_eq_false_iff (s : State) : waitAgain (statusWord s) = false ↔ s.phase ≠ .init := by
  rw [← Bool.not_eq_true, waitAgain_statusWord]

end Sys2Proof.Machine
end

section
/-! SUPPORT. What the assembler's lines expand to (30_encoding.md R81, R73). -/

namespace Sys2Proof.Machine

/-- A run of one-word frames. -/
theorem flatten_replicate_encode_gen (n : Nat) : (List.replicate n (encode .gen)).flatten = List.replicate n 0x00000002 :=
  List.flatten_replicate_singleton

theorem assembleLine_load (zs : List Word) (key iv : Bytes16) :
    assembleLine zs (.load key.toList iv.toList) = some (encode (.load key iv)) := by
  simp [assembleLine, mkLoad_toList]

theorem assembleLine_xorKeystream (zs : List Word) (key iv : Bytes16) (data : List Byte) :
    assembleLine zs (.xorKeystream key.toList iv.toList data) =
      some (encode (.load key iv) ++ List.replicate (wordsForBytes data.length) 0x00000002) := by
  simp [assembleLine, mkLoad_toList, flatten_replicate_encode_gen]

/-- The loop does not end at responses that all say INIT. -/
theorem waitReadyWords_eq_none {zs : List Word} (h : ∀ y ∈ zs, waitAgain y = true) : waitReadyWords zs = none := by
  induction zs with
  | nil => rfl
  | cons z zs ih =>
    obtain ⟨hz, hzs⟩ := List.forall_mem_cons.mp h
    simp [waitReadyWords, hz, ih hzs]

theorem waitReadyWords_append {zs : List Word} (h : ∀ y ∈ zs, waitAgain y = true) {z : Word} (hz : waitAgain z = false)
    (more : List Word) : waitReadyWords (zs ++ z :: more) = some (List.replicate (zs.length + 1) 0x00000003) := by
  induction zs with
  | nil => simp [waitReadyWords, hz, encode]
  | cons y zs ih =>
    obtain ⟨hy, hzs⟩ := List.forall_mem_cons.mp h
    simp [waitReadyWords, hy, ih hzs, encode, List.replicate_succ]

end Sys2Proof.Machine
end

section
/-! SUPPORT. How far the controller has come `k` steps after a LOAD, and what its steps leave alone (43_controller.md R155, R156). -/

namespace Sys2Proof.Machine

/-- The phase and round after `k` controller steps: INIT with that many rounds done, or READY from the 33rd on. -/
def Progress (k : Nat) (s : State) : Prop :=
  if k < 33 then s.phase = .init ∧ s.round.toNat = k else s.phase = .ready ∧ s.round = 33

theorem progress_of_lt {k : Nat} {s : State} (hk : k < 33) : Progress k s ↔ s.phase = .init ∧ s.round.toNat = k := by
  simp [Progress, hk]

theorem progress_of_ge {k : Nat} {s : State} (hk : 33 ≤ k) : Progress k s ↔ s.phase = .ready ∧ s.round = 33 := by
  simp [Progress, hk.not_gt]

theorem progress_of_init {s : State} (h : StateInv s) (hp : s.phase = .init) : Progress s.round.toNat s := by
  have hround := ((controlOk_of_init hp).mp h.1).1
  exact (progress_of_lt (Nat.lt_succ_of_le hround)).mpr ⟨hp, rfl⟩

/-- Two states agree on the ports: the frame assembler, the command port and its owner, the response FIFO and the words
delivered. -/
def SamePorts (s t : State) : Prop :=
  t.pend = s.pend ∧ t.port = s.port ∧ t.resp = s.resp ∧ t.delivered = s.delivered ∧ t.owner = s.owner

theorem SamePorts.refl (s : State) : SamePorts s s := ⟨rfl, rfl, rfl, rfl, rfl⟩

theorem SamePorts.trans {s t u : State} (h : SamePorts s t) (h' : SamePorts t u) : SamePorts s u := by
  obtain ⟨hpend, hport, hresp, hdelivered, howner⟩ := h
  obtain ⟨hpend', hport', hresp', hdelivered', howner'⟩ := h'
  exact ⟨hpend'.trans hpend, hport'.trans hport, hresp'.trans hresp, hdelivered'.trans hdelivered, howner'.trans howner⟩

/-- In INIT the invariant has the registers written and no cell 0, so a round can read them (10_state.md R35). -/
theorem exists_datapath_of_init {s : State} (h : StateInv s) (hp : s.phase = .init) :
    ∃ d : Datapath, s.cells = some d.cells ∧ s.r1 = some d.r1 ∧ s.r2 = some d.r2 ∧ cellsLegal d.cells = true := by
  obtain ⟨-, ⟨⟨hr1, hr2⟩, -, -, hsome, -, hlegal⟩, -⟩ := h
  have hcells := hsome (.inl hp)
  obtain ⟨cells, hc⟩ := Option.isSome_iff_exists.mp hcells
  obtain ⟨a, h1⟩ := Option.isSome_iff_exists.mp (hr1 ▸ hcells)
  obtain ⟨b, h2⟩ := Option.isSome_iff_exists.mp (hr2 ▸ hr1 ▸ hcells)
  exact ⟨⟨cells, a, b⟩, hc, h1, h2, hlegal cells hc⟩

/-- The controller's step always answers, is one step further, and leaves the ports and the schedule alone. -/
theorem controllerStep_progress {k : Nat} {s : State} (h : StateInv s) (hk : Progress k s) :
    ∃ t, controllerStep s = .next t ∧ Progress (k + 1) t ∧ SamePorts s t ∧ t.sched = s.sched := by
  by_cases hlt : k < 33
  · obtain ⟨hp, hround⟩ := (progress_of_lt hlt).mp hk
    obtain ⟨d, hc, h1, h2, hl⟩ := exists_datapath_of_init h hp
    by_cases h32 : k < 32
    · have hnext : (s.round + 1).toNat = k + 1 := by bv_omega
      exact ⟨_, (controllerStep_eq_initRound hp (by omega)).trans (withDatapath_of_legal _ hc h1 h2 hl),
        (progress_of_lt (by omega)).mpr ⟨hp, hnext⟩, ⟨rfl, rfl, rfl, rfl, rfl⟩, rfl⟩
    · exact ⟨_, (controllerStep_eq_warmupRound hp (by omega)).trans (withDatapath_of_legal _ hc h1 h2 hl),
        (progress_of_ge (by omega)).mpr ⟨rfl, rfl⟩, ⟨rfl, rfl, rfl, rfl, rfl⟩, rfl⟩
  · have hready := (progress_of_ge (not_lt.mp hlt)).mp hk
    exact ⟨s, controllerStep_of_not_init (by simp [hready.1]), (progress_of_ge (by omega)).mpr hready,
      .refl s, rfl⟩

/-- R155: `n` controller steps in a row, in which the phase may reach READY and stay there. -/
theorem run_controllers {n k : Nat} {s : State} {rest : List Turn} (h : StateInv s) (hk : Progress k s)
    (hs : s.sched = List.replicate n .controller ++ rest) :
    ∃ t, Sys2Proof.core.run n s = .next t ∧ StateInv t ∧ Progress (k + n) t ∧ SamePorts s t ∧ t.sched = rest := by
  induction n generalizing k s with
  | zero => exact ⟨s, rfl, h, hk, .refl s, hs⟩
  | succ n ih =>
    rw [List.replicate_succ, List.cons_append] at hs
    have hinv : StateInv { s with sched := List.replicate n .controller ++ rest } := h
    obtain ⟨u, hu, hku, hports, hsched⟩ := controllerStep_progress hinv hk
    obtain ⟨t, ht, hinvt, hkt, hportst, hrest⟩ := ih (controllerStep_keeps_inv hinv hu) hku hsched
    refine ⟨t, (run_succ_of_cons hs hu).trans ht, hinvt, ?_, hports.trans hportst, hrest⟩
    rwa [Nat.add_right_comm, Nat.add_assoc] at hkt

end Sys2Proof.Machine
end

section
/-! SUPPORT. WAIT_READY's loop on the machine, turn by turn (30_encoding.md R81; 70_reset_and_hazards.md R249). -/

namespace Sys2Proof.Machine

/-- What STATUS reports `k` controller steps after a LOAD (70_reset_and_hazards.md R249). -/
def roundReport (k : Nat) : Word := if k < 33 then BitVec.ofNat 32 (256 * k + 1) else 0x00002102

theorem statusWord_of_progress {k : Nat} {s : State} (h : StateInv s) (hk : Progress k s) :
    statusWord s = roundReport k := by
  unfold roundReport
  split
  · next hlt =>
    obtain ⟨hp, hround⟩ := (progress_of_lt hlt).mp hk
    refine (statusWord_eq hp rfl (cause_eq_none_of_controlOk h.1 (by simp [hp]))).trans ?_
    simp [causeCode, phaseCode, hround]
  · next hge =>
    obtain ⟨hp, hround⟩ := (progress_of_ge (not_lt.mp hge)).mp hk
    exact (statusWord_eq hp hround (cause_eq_none_of_controlOk h.1 (by simp [hp]))).trans (by decide)

/-- Nothing waits on the ports, and host stream `host` may drive the command port. -/
def IdlePorts (host : Nat) (s : State) : Prop :=
  s.pend = [] ∧ s.port = [] ∧ s.resp = [] ∧ (s.owner = none ∨ s.owner = some host)

/-- Between frames, with nothing left on the ports, the host reads the one word that its command added. -/
theorem answer_of_delivered {moves : List Turn} {s t : State} {z : Word} (hm : noInput moves = true) (hport : t.port = [])
    (hpend : t.pend = []) (hresp : t.resp = []) (hs : s.resp = []) (hd : t.delivered = s.delivered ++ [z]) :
    answer moves s t = some z := by
  simp [answer, hm, hport, hpend, hresp, hs, hd]

/-- R183, R186: a STATUS alone on the command port is accepted, its response popped, and nothing else changes. -/
theorem run_accept_status_pop {s : State} (hpend : s.pend = []) (hport : s.port = encode .status) (hresp : s.resp = [])
    (hs : s.sched = [.accept, .pop]) :
    Sys2Proof.core.run 2 s = .next { s with port := [], delivered := s.delivered ++ [statusWord s], sched := [] } := by
  have hd : decode (s.pend ++ s.port) = .frame .status [] := by rw [hpend, hport]; rfl
  have haccept : takeTurn .accept { s with sched := [.pop] } =
      .next { s with port := [], resp := [statusWord s], sched := [.pop] } := by
    refine (acceptTurn_of_frame (s := { s with sched := [.pop] }) hd).trans ?_
    have hroom : s.resp.length ≠ Config.respDepth := by simp [hresp, Config.respDepth]
    refine (execStatus_of_room (s := { s with sched := [.pop] }) hroom).trans ?_
    simp [emit, retire, frameWords, statusWord, hpend, hport, hresp, encode]
  refine (run_succ_of_cons hs haccept).trans ((run_succ_of_cons rfl rfl).trans ?_)
  simp [Host.Core.run, popTurn, hresp]

/-- One turn from `k` controller steps on: `n` more of them, and the response is the status word of the state they reach. -/
theorem issue_status_poll {host n k : Nat} {s : State} (h : StateInv s) (hidle : IdlePorts host s) (hk : Progress k s) :
    ∃ t, issue host .status (pollMoves n) s = .next t ∧ answer (pollMoves n) s t = some (statusWord t) ∧
      StateInv t ∧ IdlePorts host t ∧ Progress (k + n) t := by
  obtain ⟨hpend, hport, hresp, howner⟩ := hidle
  rw [issue_eq howner, hport]
  obtain ⟨u, hu, hinv, hku, ⟨hupend, huport, huresp, hudelivered, huowner⟩, husched⟩ :=
    run_controllers (n := n) (rest := [.accept, .pop])
      (s := { s with port := [] ++ encode .status, owner := some host, sched := pollMoves n }) h hk rfl
  have hpend' : u.pend = [] := hupend.trans hpend
  have hresp' : u.resp = [] := huresp.trans hresp
  have hlen : (pollMoves n).length = n + 2 := by simp [pollMoves]
  rw [hlen, run_add (M := Sys2Proof.core) hu, run_accept_status_pop hpend' huport hresp' husched]
  exact ⟨_, rfl, answer_of_delivered (noInput_pollMoves n) rfl hpend' hresp' hresp (congrArg (· ++ _) hudelivered), hinv,
    ⟨hpend', rfl, hresp', .inr huowner⟩, hku⟩

/-- The responses WAIT_READY's loop reads from round `k` on, with `ns` controller steps in its turns. -/
def pollResponses (k : Nat) (ns : List Nat) : List Word :=
  (List.range ns.length).map fun i => roundReport (k + (ns.take (i + 1)).sum)

theorem pollResponses_cons (k n : Nat) (ns : List Nat) :
    pollResponses k (n :: ns) = roundReport (k + n) :: pollResponses (k + n) ns := by
  simp [pollResponses, List.range_succ_eq_map, Nat.add_assoc]

/-- The loop from round `k`: every turn but the last leaves the controller in INIT, so goes round; the last may reach READY, and is
then where the loop is left. -/
theorem waitReady_polls {host : Nat} {ns : List Nat} {k : Nat} {s : State} (h : StateInv s) (hidle : IdlePorts host s)
    (hk : Progress k s) (hlt : k < 33) (hns : ∀ i < ns.length, k + (ns.take i).sum < 33) :
    (waitReady host (ns.map pollMoves) s).responses = pollResponses k ns ∧
    (waitReady host (ns.map pollMoves) s).ending = (if k + ns.sum < 33 then .again else .left) ∧
    Progress (k + ns.sum) (waitReady host (ns.map pollMoves) s).state := by
  induction ns generalizing k s with
  | nil => exact ⟨rfl, (if_pos hlt).symm, hk⟩
  | cons n ns ih =>
    obtain ⟨t, hissue, hanswer, hinv, hidlet, hkt⟩ := issue_status_poll (n := n) h hidle hk
    have hz := statusWord_of_progress hinv hkt
    rw [List.map_cons, pollResponses_cons, ← hz, List.sum_cons, ← Nat.add_assoc]
    by_cases hagain : k + n < 33
    · have hwait : waitAgain (statusWord t) = true := (waitAgain_statusWord t).mpr ((progress_of_lt hagain).mp hkt).1
      have hrest (i : Nat) (hi : i < ns.length) : k + n + (ns.take i).sum < 33 := by
        simpa [Nat.add_assoc] using hns (i + 1) (Nat.succ_lt_succ hi)
      obtain ⟨hresponses, hending, hstate⟩ := ih hinv hidlet hkt hagain hrest
      rw [waitReady_again hissue hanswer hwait]
      exact ⟨congrArg (_ :: ·) hresponses, hending, hstate⟩
    · have hready := (progress_of_ge (not_lt.mp hagain)).mp hkt
      have hwait : waitAgain (statusWord t) = false :=
        (waitAgain_statusWord_eq_false_iff t).mpr (by simp [hready.1])
      obtain rfl : ns = [] := by
        by_contra hne
        exact hagain (by simpa using hns 1 (by simpa using List.length_pos_iff.mpr hne))
      rw [waitReady_left hissue hanswer hwait]
      exact ⟨rfl, (if_neg hagain).symm, hkt⟩

end Sys2Proof.Machine
end

section
/-! The settled statements of 30_encoding.md: the command words and the decoder, the status word, the assembler and WAIT_READY's
loop. -/

namespace Sys2Proof.Machine

/-- Settles O6, in `decode_encode_append`: R73's inverse undoes its packing. -/
theorem decodeOfEncodeIsIdentity : Obligations.DecodeOfEncodeIsIdentity := decode_encode_append

/-- Settles O4: the fields of an illegal header are those of a word that is none of the three legal headers. -/
theorem illegalHeadersAreOneWordFrames : Obligations.IllegalHeadersAreOneWordFrames := by
  have hillegal (w : Word) (rest : List Word) : decode (w :: rest) = .illegal w rest ↔
      (opcField w ≠ 0x01 ∧ opcField w ≠ 0x02 ∧ opcField w ≠ 0x03) ∨ rsvField w ≠ 0 := by
    rw [← decodeHeader_eq_illegal_iff_fields]
    exact ⟨decodeHeader_eq_illegal_of_decode, fun h => decode_illegal_cons h rest⟩
  refine ⟨hillegal, fun s w rest hwords hfields hp => ?_, fun payload rest hlen => ?_⟩
  · have hd : decode (s.pend ++ s.port) = .illegal w rest := hwords ▸ (hillegal w rest).mpr hfields
    rw [acceptTurn_of_illegal hd, illegalHeader_of_not_fault hp]
    simp [raiseFault, retire, frameWords, hwords]
  · obtain ⟨key, iv, h⟩ := decode_load_payload hlen rest
    exact ⟨.load key iv, h⟩

/-- Settles O7, in `eq_encode_append_of_decode`: R73's packing undoes its inverse. -/
theorem encodeOfDecodedFrame : Obligations.EncodeOfDecodedFrame := fun _ _ _ => eq_encode_append_of_decode

/-- Settles O8: the payload is `loadPayload`, read word by word and byte by byte. -/
theorem loadPayloadPacksBigEndian : Obligations.LoadPayloadPacksBigEndian := by
  refine ⟨fun key iv => ⟨loadPayload key iv, encode_load key iv, fun j => ?_, fun i => ?_⟩, fun p => ?_,
    mkLoad_eq_none_iff⟩
  · exact ⟨loadPayload_key key iv j, loadPayload_iv key iv j⟩
  · rw [loadPayload_key key iv ⟨i.val / 4, by omega⟩, loadPayload_iv key iv ⟨i.val / 4, by omega⟩]
    exact ⟨(extractLsb'_packWord_div key i).symm, (extractLsb'_packWord_div iv i).symm⟩
  · simpa using decode_load_payload (payload := p.toList) (by simp) []

/-- Settles O9: `decode_eq_incomplete` one way, `decode_partial_load` the other. -/
theorem incompleteExactlyPartialLoad : Obligations.IncompleteExactlyPartialLoad := by
  intro ws
  refine ⟨decode_eq_incomplete, fun ⟨hhead, hlen⟩ => ?_⟩
  obtain ⟨payload, rfl⟩ := List.head?_eq_some_iff.mp hhead
  exact decode_partial_load (Nat.lt_of_succ_le hlen)

/-- Settles O10: an induction over the frames one way (`decodeStream_flatMap`), over the fuel the other
(`cutsInto_of_decodeStreamFrom`). -/
theorem streamDecoderCutsFrames : Obligations.StreamDecoderCutsFrames := by
  refine ⟨fun frames hf => ⟨?_, fun part hhead hlen => ?_⟩, fun ws frames => cutsInto_of_decodeStreamFrom le_rfl⟩
  · obtain ⟨fuel, -, h⟩ := decodeStream_flatMap hf []
    rw [decodeStreamFrom_nil, List.append_nil] at h
    simpa [Except.map] using h
  · obtain ⟨fuel, hfuel, h⟩ := decodeStream_flatMap hf part
    obtain ⟨payload, rfl⟩ := List.head?_eq_some_iff.mp hhead
    obtain ⟨k, rfl⟩ := Nat.exists_eq_add_of_lt (Nat.lt_of_succ_le hfuel)
    rw [h, decodeStreamFrom_incomplete (decode_partial_load (Nat.lt_of_succ_le hlen))]
    rfl

/-- Settles O11: each field is a quotient and remainder of the sum in `statusWord_toNat`. -/
theorem statusWordLayout : Obligations.StatusWordLayout := by
  refine ⟨fun s => ?_, fun s => ⟨statusWord_eq, statusWord_eq, statusWord_eq, statusWord_eq, statusWord_eq⟩, rfl, rfl, rfl⟩
  have hc := (causeCode s.cause).isLt
  have hr := s.round.isLt
  have hp := (phaseCode s.phase).isLt
  refine ⟨statusPhase_statusWord s, ?_, ?_, ?_, ?_, ?_⟩
  all_goals
    apply BitVec.eq_of_toNat_eq
    simp only [toNat_extractLsb'_statusWord, BitVec.ofNat_eq_ofNat, BitVec.toNat_ofNat]
    omega

/-- Settles O59: the loop by induction over its turns (`waitReady_polls`); outside INIT by its one turn. -/
theorem waitReadyLoopsWhileInit : Obligations.WaitReadyLoopsWhileInit := by
  refine ⟨fun s host ns h hp hpend hport hresp howner hns => ?_, fun s host turns hp hpend hport hresp howner => ?_⟩
  · have hk := progress_of_init h hp
    obtain ⟨hresponses, hending, hstate⟩ := waitReady_polls h ⟨hpend, hport, hresp, howner⟩ hk
      (Nat.lt_succ_of_le ((controlOk_of_init hp).mp h.1).1) hns
    refine ⟨hresponses, fun hlt => ?_, fun hge => ?_⟩
    · exact ⟨hending.trans (if_pos hlt), (progress_of_lt hlt).mp hstate⟩
    · exact ⟨hending.trans (if_neg hge.not_gt), (progress_of_ge hge).mp hstate⟩
  · have hissue : issue host .status (pollMoves 0) s =
        .next { s with delivered := s.delivered ++ [statusWord s], owner := some host, sched := [] } := by
      rw [issue_eq howner, hport]
      exact run_accept_status_pop (s := { s with port := encode .status, owner := some host, sched := pollMoves 0 })
        hpend rfl hresp rfl
    have hwait : waitAgain (statusWord s) = false := (waitAgain_statusWord_eq_false_iff s).mpr hp
    exact waitReady_left hissue (answer_of_delivered (noInput_pollMoves 0) hport hpend hresp hresp rfl) hwait

/-- Settles O3, header by header. -/
theorem headerDecodesToExactlyOne : Obligations.HeaderDecodesToExactlyOne := fun w =>
  ⟨decodeHeader_eq_load_iff w, decodeHeader_eq_gen_iff w, decodeHeader_eq_status_iff w, decodeHeader_eq_illegal_iff w⟩

/-- Settles O5, on the spec's words. -/
theorem specWordsDecode : Obligations.SpecWordsDecode := by
  refine ⟨?_, decode_gen_cons [], decode_status_cons [], decode_illegal_cons rfl [], decode_illegal_cons rfl []⟩
  decide +kernel

/-- Settles O12: a LOAD line by `encode`, a WAIT_READY line by induction over its responses, and the lines of text by
evaluation. -/
theorem assemblerExpandsLines : Obligations.AssemblerExpandsLines := by
  refine ⟨fun zs => ⟨rfl, rfl, rfl⟩, fun zs w => rfl, fun zs n => congrArg some (flatten_replicate_encode_gen n),
    fun z => decide_eq_true_iff, waitAgain_statusWord,
    fun zs h => ⟨waitReadyWords_eq_none h, fun z more hz => waitReadyWords_append h hz more⟩,
    fun zs key iv data => ⟨assembleLine_load zs key iv, assembleLine_xorKeystream zs key iv data⟩,
    fun zs key iv data h => ?_, ?_⟩
  · have hnone : mkLoad key iv = none := (mkLoad_eq_none_iff key iv).mpr h
    simp [assembleLine, hnone]
  · decide +kernel

/-- Settles O41: an acceptance step at what `decode_eq_incomplete` says an incomplete frame is. -/
theorem incompleteFrameWaitsInPend : Obligations.IncompleteFrameWaitsInPend := by
  intro s rest hs hd
  rw [step_of_cons hs]
  exact ⟨acceptTurn_of_incomplete (s := { s with sched := rest }) hd, (decode_eq_incomplete hd).2⟩

/-- Settles O53: what waits on the port behind the placed words does not change what they decode to. -/
theorem placedInstructionRunsNext : Obligations.PlacedInstructionRunsNext := by
  intro s nbits w i h
  obtain ⟨rest, hd⟩ := decode_tableWords h
  rw [step_of_cons (s := s.withFetchWord nbits w) (t := .accept) (rest := s.sched) rfl]
  exact acceptTurn_of_frame (rest := rest ++ s.port) (decode_append_of_frame hd s.port)

end Sys2Proof.Machine
end

section
/-! SUPPORT. The field's arithmetic on stored cells (40_lfsr.md R100 to R102): what each operation gives as a number, and which
residue modulo P it stands for. -/

namespace Sys2Proof.Machine

/-- R21: 31 bits hold no more than P. -/
theorem cell_toNat_le (a : Cell) : a.toNat ≤ Config.P := Nat.le_pred_of_lt a.isLt

theorem cell_eq_zero_iff (a : Cell) : a = 0 ↔ a.toNat = 0 := BitVec.toNat_inj.symm

theorem cell_eq_P_iff (a : Cell) : a = 0x7FFFFFFF ↔ a.toNat = Config.P := BitVec.toNat_inj.symm

/-- R100: the zero class has two stored forms, 0 and P. -/
theorem cell_mod_P_eq_zero_iff (a : Cell) : a.toNat % Config.P = 0 ↔ a = 0 ∨ a = 0x7FFFFFFF := by
  have hle := cell_toNat_le a
  rw [cell_eq_zero_iff, cell_eq_P_iff]
  unfold Config.P at *
  omega

/-- Folding what lies above bit 30 back onto the low 31 bits keeps the residue, since `2^31 = P + 1`. -/
theorem foldCarry_modEq (c : Nat) : c % 2 ^ 31 + c / 2 ^ 31 ≡ c [MOD Config.P] := by
  unfold Nat.ModEq Config.P
  omega

theorem foldCarry_eq_zero_iff (c : Nat) : c % 2 ^ 31 + c / 2 ^ 31 = 0 ↔ c = 0 := by omega

/-- R101's formula over the exact sum: neither 32-bit addition overflows, and the result fits a cell. -/
theorem addmod31_toNat (a b : Cell) :
    (addmod31 a b).toNat = (a.toNat + b.toNat) % 2 ^ 31 + (a.toNat + b.toNat) / 2 ^ 31 := by
  have ha := a.isLt
  have hb := b.isLt
  have hsum : (a.setWidth 32 + b.setWidth 32).toNat = a.toNat + b.toNat := by
    simp only [BitVec.toNat_add, BitVec.toNat_setWidth]
    omega
  have hmask : ((0x7FFFFFFF : Nat) : Word).toNat = 2 ^ 31 - 1 := rfl
  rw [addmod31, BitVec.toNat_setWidth, BitVec.toNat_add, BitVec.toNat_and, hsum, hmask, Nat.and_two_pow_sub_one_eq_mod,
    BitVec.toNat_ushiftRight, hsum, Nat.shiftRight_eq_div_pow]
  omega

/-- R101: the end-around carry adds modulo P. -/
theorem addmod31_modEq (a b : Cell) : (addmod31 a b).toNat ≡ a.toNat + b.toNat [MOD Config.P] :=
  addmod31_toNat a b ▸ foldCarry_modEq _

/-- R101: the result is 0 only for 0 + 0. -/
theorem addmod31_eq_zero_iff (a b : Cell) : addmod31 a b = 0 ↔ a = 0 ∧ b = 0 := by
  rw [cell_eq_zero_iff, addmod31_toNat, foldCarry_eq_zero_iff, Nat.add_eq_zero_iff, ← cell_eq_zero_iff, ← cell_eq_zero_iff]

/-- R102's product: 64 bits hold the product of two cells, so it is the exact one. -/
theorem mulmod31_toNat (a b : Cell) : (mulmod31 a b).toNat = a.toNat * b.toNat % Config.P := by
  have hwide (c : Cell) : (c.setWidth 64).toNat = c.toNat := BitVec.toNat_setWidth_of_le (by decide)
  have hprod : a.toNat * b.toNat < 2 ^ 64 := (Nat.mul_lt_mul'' a.isLt b.isLt).trans (by decide)
  have hmod : a.toNat * b.toNat % Config.P < 2 ^ 31 := (Nat.mod_lt _ (by decide)).trans (by decide)
  have hP : (BitVec.ofNat 64 Config.P).toNat = Config.P := rfl
  rw [mulmod31, BitVec.toNat_setWidth, BitVec.toNat_umod, BitVec.toNat_mul, hwide, hwide, Nat.mod_eq_of_lt hprod, hP,
    Nat.mod_eq_of_lt hmod]

theorem mulmod31_P (b : Cell) : mulmod31 0x7FFFFFFF b = 0 := by
  rw [cell_eq_zero_iff, mulmod31_toNat]
  exact Nat.mul_mod_right Config.P b.toNat

theorem mulmod31_two_pow_toNat (a : Cell) {k : Nat} (hk : k ≤ 30) :
    (mulmod31 a (BitVec.ofNat 31 (2 ^ k))).toNat = a.toNat * 2 ^ k % Config.P := by
  have hpow : (2 ^ k) % 2 ^ 31 = 2 ^ k := Nat.mod_eq_of_lt (Nat.pow_lt_pow_right (by decide) (Nat.lt_succ_of_le hk))
  rw [mulmod31_toNat, BitVec.toNat_ofNat, hpow]

/-- R102: a rotation is the shifted number with its carry folded in, as the sum's is in R101. -/
theorem rot31_toNat (a : Cell) {k : Nat} (hk : k ≤ 30) :
    (rot31 a k).toNat = a.toNat * 2 ^ k % 2 ^ 31 + a.toNat * 2 ^ k / 2 ^ 31 := by
  have hpow : 2 ^ 31 = 2 ^ (31 - k) * 2 ^ k := by rw [← pow_add, Nat.sub_add_cancel (hk.trans (by decide))]
  have hlow : a.toNat * 2 ^ k % 2 ^ 31 = 2 ^ k * (a.toNat % 2 ^ (31 - k)) := by
    rw [hpow, Nat.mul_mod_mul_right, Nat.mul_comm]
  have hhigh : a.toNat * 2 ^ k / 2 ^ 31 = a.toNat / 2 ^ (31 - k) := by
    rw [hpow, Nat.mul_div_mul_right _ _ (Nat.two_pow_pos k)]
  have hlt : a.toNat / 2 ^ (31 - k) < 2 ^ k := Nat.div_lt_of_lt_mul (hpow ▸ a.isLt)
  rw [rot31, BitVec.toNat_or, BitVec.toNat_shiftLeft, BitVec.toNat_ushiftRight, Nat.shiftLeft_eq,
    Nat.shiftRight_eq_div_pow, hlow, hhigh, Nat.two_pow_add_eq_or_of_lt hlt]

/-- R102: a rotation multiplies by `2^k` modulo P. -/
theorem rot31_modEq (a : Cell) {k : Nat} (hk : k ≤ 30) : (rot31 a k).toNat ≡ a.toNat * 2 ^ k [MOD Config.P] :=
  rot31_toNat a hk ▸ foldCarry_modEq _

theorem rot31_eq_zero_iff (a : Cell) {k : Nat} (hk : k ≤ 30) : rot31 a k = 0 ↔ a = 0 := by
  simp only [cell_eq_zero_iff, rot31_toNat a hk, foldCarry_eq_zero_iff, Nat.mul_eq_zero, (Nat.two_pow_pos k).ne', or_false]

/-- R102: a rotation neither enters nor leaves the zero class, since `2^k` is a unit modulo P. -/
theorem rot31_mod_P_eq_zero_iff (a : Cell) {k : Nat} (hk : k ≤ 30) :
    (rot31 a k).toNat % Config.P = 0 ↔ a.toNat % Config.P = 0 := by
  have hunit : Nat.Coprime Config.P (2 ^ k) := Nat.Coprime.pow_right k (by decide)
  rw [rot31_modEq a hk, ← Nat.dvd_iff_mod_eq_zero, ← Nat.dvd_iff_mod_eq_zero]
  exact hunit.dvd_mul_right

/-- R102: each of the zero class's two forms is kept, so P is rotated to itself and nothing else to P. -/
theorem rot31_eq_P_iff (a : Cell) {k : Nat} (hk : k ≤ 30) : rot31 a k = 0x7FFFFFFF ↔ a = 0x7FFFFFFF := by
  have hclass := rot31_mod_P_eq_zero_iff a hk
  rw [cell_mod_P_eq_zero_iff, cell_mod_P_eq_zero_iff, rot31_eq_zero_iff a hk] at hclass
  constructor
  · intro h
    refine (hclass.mp (.inr h)).resolve_left fun hz => ?_
    rw [(rot31_eq_zero_iff a hk).mpr hz] at h
    exact absurd h (by decide)
  · rintro rfl
    exact (hclass.mpr (.inr rfl)).resolve_left (by decide)

/-- R102: off P the rotation is the canonical residue, so it is the product. -/
theorem mulmod31_two_pow_eq_rot31 {a : Cell} {k : Nat} (hk : k ≤ 30) (ha : a ≠ 0x7FFFFFFF) :
    mulmod31 a (BitVec.ofNat 31 (2 ^ k)) = rot31 a k := by
  have hne : (rot31 a k).toNat ≠ Config.P := fun h => ha ((rot31_eq_P_iff a hk).mp ((cell_eq_P_iff _).mpr h))
  have hlt : (rot31 a k).toNat < Config.P := lt_of_le_of_ne (cell_toNat_le _) hne
  apply BitVec.eq_of_toNat_eq
  rw [mulmod31_two_pow_toNat a hk, ← rot31_modEq a hk, Nat.mod_eq_of_lt hlt]

end Sys2Proof.Machine
end

section
/-! SUPPORT. The register shift and the feedback (40_lfsr.md R103 to R108): the exact sum, its canonical form, and the chains of
`addmod31` that compute it. -/

namespace Sys2Proof.Machine

theorem lfsrShift_getElem (s : Cells) (s16 : Cell) {i : Nat} (hi : i < 15) : (lfsrShift s s16)[i] = s[i + 1] := by
  simp [lfsrShift, Nat.succ_lt_succ hi]

@[simp] theorem lfsrShift_getElem_last (s : Cells) (s16 : Cell) : (lfsrShift s s16)[15] = s16 := by
  simp [lfsrShift]

theorem lfsrInit_getElem (s : Cells) (u : BitVec 31) {i : Nat} (hi : i < 15) : (lfsrInit s u)[i] = s[i + 1] :=
  lfsrShift_getElem s _ hi

theorem lfsrWork_getElem (s : Cells) {i : Nat} (hi : i < 15) : (lfsrWork s)[i] = s[i + 1] := lfsrShift_getElem s _ hi

@[simp] theorem lfsrInit_getElem_last (s : Cells) (u : BitVec 31) : (lfsrInit s u)[15] = canonP (lfsrV s + u.toNat) :=
  lfsrShift_getElem_last s _

@[simp] theorem lfsrWork_getElem_last (s : Cells) : (lfsrWork s)[15] = canonP (lfsrV s) := lfsrShift_getElem_last s _

/-- R103's sum before its one reduction. -/
def feedbackSum (s : Cells) : Nat :=
  2 ^ 15 * s[15].toNat + 2 ^ 17 * s[13].toNat + 2 ^ 21 * s[10].toNat + 2 ^ 20 * s[4].toNat + (2 ^ 8 + 1) * s[0].toNat

theorem lfsrV_modEq (s : Cells) : lfsrV s ≡ feedbackSum s [MOD Config.P] := Nat.mod_modEq _ _

/-- R9: the stored form depends on the residue alone. -/
theorem canonP_congr {c d : Nat} (h : c ≡ d [MOD Config.P]) : canonP c = canonP d := by
  rw [canonP, canonP, h]

/-- R9, R108: a stored residue is in [1, P]. -/
theorem canonP_toNat_mem (c : Nat) : 1 ≤ (canonP c).toNat ∧ (canonP c).toNat ≤ Config.P :=
  ⟨Nat.pos_of_ne_zero fun h => canonP_ne_zero c ((cell_eq_zero_iff _).mpr h), cell_toNat_le _⟩

/-- R107: the zero substitution brings every cell to the stored form of its residue. -/
theorem substZero_eq_canonP (a : Cell) : substZero a = canonP a.toNat := by
  apply BitVec.eq_of_toNat_eq
  rw [canonP_toNat]
  by_cases hclass : a.toNat % Config.P = 0
  · rw [if_pos hclass]
    rcases (cell_mod_P_eq_zero_iff a).mp hclass with rfl | rfl <;> rfl
  · have hne : a ≠ 0 ∧ a ≠ 0x7FFFFFFF := not_or.mp fun h => hclass ((cell_mod_P_eq_zero_iff a).mpr h)
    have hlt : a.toNat < Config.P := lt_of_le_of_ne (cell_toNat_le a) fun h => hne.2 ((cell_eq_P_iff a).mpr h)
    rw [if_neg hclass, substZero, if_neg hne.1, Nat.mod_eq_of_lt hlt]

/-- R107: a chain adds its terms modulo P, whatever its association. -/
theorem chainValue_modEq (chain : AddChain) :
    (chainValue chain).toNat ≡ ((chainTerms chain).map BitVec.toNat).sum [MOD Config.P] := by
  induction chain with
  | term a => rfl
  | add l r ihl ihr =>
    rw [chainTerms, List.map_append, List.sum_append]
    exact (addmod31_modEq _ _).trans (ihl.add ihr)

/-- R107: nor does the order of the terms matter. -/
theorem chainValue_modEq_of_perm {chain : AddChain} {terms : List Cell} (h : (chainTerms chain).Perm terms) :
    (chainValue chain).toNat ≡ (terms.map BitVec.toNat).sum [MOD Config.P] :=
  (h.map BitVec.toNat).sum_eq ▸ chainValue_modEq chain

/-- R107: both ways to form a shift term give `2^k * a` modulo P. -/
theorem IsShiftTerm.modEq {t a : Cell} {k : Nat} (h : IsShiftTerm t a k) (hk : k ≤ 30) :
    t.toNat ≡ 2 ^ k * a.toNat [MOD Config.P] := by
  rw [Nat.mul_comm]
  rcases h with rfl | rfl
  · rw [mulmod31_two_pow_toNat a hk]
    exact Nat.mod_modEq _ _
  · exact rot31_modEq a hk

/-- R107: both ways to form the last term give `(2^8 + 1) * a` modulo P. -/
theorem IsLastTerm.modEq {t a : Cell} (h : IsLastTerm t a) : t.toNat ≡ (2 ^ 8 + 1) * a.toNat [MOD Config.P] := by
  rcases h with rfl | ⟨t8, h8, rfl⟩
  · rw [mulmod31_toNat, Nat.mul_comm]
    exact Nat.mod_modEq _ _
  · rw [Nat.add_mul, Nat.one_mul]
    exact (addmod31_modEq t8 a).trans ((h8.modEq (by decide)).add_right _)

/-- R107: the five terms, however each was formed, add up to the exact sum modulo P. -/
theorem feedbackTerms_sum_modEq {s : Cells} {t15 t13 t10 t4 t0 : Cell} (h15 : IsShiftTerm t15 s[15] 15)
    (h13 : IsShiftTerm t13 s[13] 17) (h10 : IsShiftTerm t10 s[10] 21) (h4 : IsShiftTerm t4 s[4] 20)
    (h0 : IsLastTerm t0 s[0]) :
    t15.toNat + t13.toNat + t10.toNat + t4.toNat + t0.toNat ≡ feedbackSum s [MOD Config.P] :=
  ((((h15.modEq (by decide)).add (h13.modEq (by decide))).add (h10.modEq (by decide))).add (h4.modEq (by decide))).add
    h0.modEq

/-- R51: no D constant has all its bits set. -/
theorem romD_ne_allOnes : ∀ i : Fin 16, romD i ≠ BitVec.allOnes 15 := by decide

/-- R151, R22: nor is a loaded cell P, whatever the key and the IV. -/
theorem keyCells_ne_P (key iv : Bytes16) (i : Fin 16) : (keyCells key iv)[i] ≠ 0x7FFFFFFF := by
  intro h
  have hk : keyCell key iv i = 0x7FFFFFFF := by simpa [keyCells] using h
  have hd := keyCell_extract_romD key iv i
  rw [hk] at hd
  exact romD_ne_allOnes i hd.symm

/-- R22: a loaded cell is in [1, P - 1]. -/
theorem keyCells_toNat_mem (key iv : Bytes16) (i : Fin 16) :
    1 ≤ (keyCells key iv)[i].toNat ∧ (keyCells key iv)[i].toNat ≤ Config.P - 1 := by
  have hzero := (cellsLegal_iff _).mp (cellsLegal_keyCells key iv) i
  have hP := keyCells_ne_P key iv i
  have hle := cell_toNat_le (keyCells key iv)[i]
  rw [ne_eq, cell_eq_zero_iff] at hzero
  rw [ne_eq, cell_eq_P_iff] at hP
  omega

end Sys2Proof.Machine
end

section
/-! The settled statements of 40_lfsr.md: the field's operations, the register shift, and the feedback of the two updates. -/

namespace Sys2Proof.Machine

/-- Settles O13: the carry folded in keeps the residue and is 0 only for 0; the rule's values by evaluation. -/
theorem addmod31AddsModuloP : Obligations.Addmod31AddsModuloP := by
  refine ⟨fun a b => ⟨addmod31_toNat a b, cell_toNat_le _, addmod31_modEq a b, addmod31_eq_zero_iff a b⟩, ?_⟩
  decide

/-- Settles O14: off P a rotation is the canonical residue of the product. -/
theorem mulmod31MultipliesModuloP : Obligations.Mulmod31MultipliesModuloP := by
  refine ⟨mulmod31_toNat, mulmod31_P, fun a k hk => ?_, by decide⟩
  exact ⟨rot31_modEq a hk, mulmod31_two_pow_eq_rot31 hk, (rot31_eq_P_iff _ hk).mpr rfl⟩

/-- Settles O15: a chain's residue is its terms' sum, which the terms' order, the chain's association and the way each term was
formed do not change; the zero substitution stores that residue. -/
theorem feedbackChainsEqualExactUpdate : Obligations.FeedbackChainsEqualExactUpdate := by
  intro s t15 t13 t10 t4 t0 u chain h15 h13 h10 h4 h0
  have hsum : t15.toNat + t13.toNat + t10.toNat + t4.toNat + t0.toNat ≡ lfsrV s [MOD Config.P] :=
    (feedbackTerms_sum_modEq h15 h13 h10 h4 h0).trans (lfsrV_modEq s).symm
  refine ⟨fun hperm => ?_, fun hperm => ?_⟩
  · have hv : (chainValue chain).toNat ≡ lfsrV s [MOD Config.P] :=
      (chainValue_modEq_of_perm hperm).trans (by simpa [add_assoc] using hsum)
    exact ⟨hv.trans (Nat.mod_mod _ _), (substZero_eq_canonP _).trans (canonP_congr hv)⟩
  · have hv : (chainValue chain).toNat ≡ lfsrV s + u.toNat [MOD Config.P] :=
      (chainValue_modEq_of_perm hperm).trans (by simpa [add_assoc] using hsum.add_right u.toNat)
    exact ⟨hv, (substZero_eq_canonP _).trans (canonP_congr hv)⟩

/-- Settles O17: `canonP` of v is `canonP` of the sum that v is the residue of. -/
theorem updatesInsertCanonicalFeedback : Obligations.UpdatesInsertCanonicalFeedback := by
  intro s u
  refine ⟨?_, ?_, fun i => ⟨lfsrInit_getElem s u i.isLt, lfsrWork_getElem s i.isLt⟩⟩
  · rw [lfsrInit_getElem_last, canonP_congr ((lfsrV_modEq s).add_right u.toNat)]
    exact canonP_toNat _
  · rw [lfsrWork_getElem_last, canonP_congr (lfsrV_modEq s)]
    exact canonP_toNat _

/-- Settles O18: the written cell is a `canonP`, and a loaded cell's D constant is neither all zeros nor all ones. -/
theorem updatesKeepCellsInRange : Obligations.UpdatesKeepCellsInRange := by
  refine ⟨fun s u => ⟨?_, ?_, fun hl => ⟨cellsLegal_lfsrInit u hl, cellsLegal_lfsrWork hl⟩⟩, keyCells_toNat_mem⟩
  · rw [lfsrInit_getElem_last]
    exact canonP_toNat_mem _
  · rw [lfsrWork_getElem_last]
    exact canonP_toNat_mem _

/-- Settles O16, cell by cell. -/
theorem shiftMovesEveryCell : Obligations.ShiftMovesEveryCell := fun s s16 =>
  ⟨fun i => lfsrShift_getElem s s16 i.isLt, lfsrShift_getElem_last s s16⟩

end Sys2Proof.Machine
end

section
/-! SUPPORT. A cell's two halves (41_bit_reconstruction.md R120, R121): their values, a word put together from two halves, and what
the masks and shifts leave of a storage word. -/

namespace Sys2Proof.Machine

theorem highHalf_toNat (c : Cell) : (highHalf c).toNat = c.toNat / 2 ^ 15 := by
  have hlt : c.toNat < 2 ^ 31 := c.isLt
  rw [highHalf, BitVec.extractLsb'_toNat, Nat.shiftRight_eq_div_pow, Nat.mod_eq_of_lt (by omega)]

theorem lowHalf_toNat (c : Cell) : (lowHalf c).toNat = c.toNat % 2 ^ 16 := by
  rw [lowHalf, BitVec.extractLsb'_toNat, Nat.shiftRight_zero]

theorem halves_append_toNat (high low : BitVec 16) : (high ++ low).toNat = high.toNat * 2 ^ 16 + low.toNat := by
  rw [BitVec.toNat_append, ← Nat.shiftLeft_add_eq_or_of_lt low.isLt, Nat.shiftLeft_eq]

theorem halves_append_eq_or (high low : BitVec 16) :
    high ++ low = (high.setWidth 32 <<< 16) ||| low.setWidth 32 := by
  rw [BitVec.append_def, BitVec.shiftLeftZeroExtend_eq, BitVec.setWidth'_eq]

theorem cellStorage_toNat (c : Cell) : (cellStorage c).toNat = c.toNat :=
  BitVec.toNat_setWidth_of_le (by decide)

/-- R21: bit 31 of a storage word is 0. -/
theorem cellStorage_and_cell_bits (c : Cell) : cellStorage c &&& 0x7FFFFFFF = cellStorage c := by
  have hmask : (0x7FFFFFFF : Word).toNat = 2 ^ 31 - 1 := rfl
  apply BitVec.eq_of_toNat_eq
  rw [BitVec.toNat_and, cellStorage_toNat, hmask, Nat.and_two_pow_sub_one_eq_mod, Nat.mod_eq_of_lt c.isLt]

theorem cellStorage_and_low (c : Cell) : cellStorage c &&& 0x0000FFFF = (lowHalf c).setWidth 32 := by
  have hmask : (0x0000FFFF : Word).toNat = 2 ^ 16 - 1 := rfl
  apply BitVec.eq_of_toNat_eq
  rw [BitVec.toNat_and, cellStorage_toNat, hmask, Nat.and_two_pow_sub_one_eq_mod,
    BitVec.toNat_setWidth_of_le (by decide), lowHalf_toNat]

/-- R121: the shift leaves at most 16 bits, because bit 31 is 0. -/
theorem cellStorage_shiftRight (c : Cell) : cellStorage c >>> 15 = (highHalf c).setWidth 32 := by
  apply BitVec.eq_of_toNat_eq
  rw [BitVec.toNat_ushiftRight, cellStorage_toNat, Nat.shiftRight_eq_div_pow,
    BitVec.toNat_setWidth_of_le (by decide), highHalf_toNat]

/-- The mask 0x7FFF8000 keeps the high half where it stands: with bit 31 already 0, it only clears bits 14..0. -/
theorem cellStorage_and_high (c : Cell) : cellStorage c &&& (0x7FFF8000 : Word) = (highHalf c).setWidth 32 <<< 15 := by
  have hmask : (0x7FFF8000 : Word) = (0x7FFFFFFF : Word) &&& (BitVec.allOnes 32 <<< 15) := by decide
  calc cellStorage c &&& (0x7FFF8000 : Word)
    _ = cellStorage c &&& (BitVec.allOnes 32 <<< 15) := by
      rw [hmask, ← BitVec.and_assoc, cellStorage_and_cell_bits]
    _ = cellStorage c >>> 15 <<< 15 := BitVec.shiftLeft_ushiftRight.symm
    _ = (highHalf c).setWidth 32 <<< 15 := by rw [cellStorage_shiftRight]

/-- R121: x[0]'s form puts the two halves side by side. -/
theorem highHalf_append_lowHalf (c d : Cell) :
    highHalf c ++ lowHalf d = ((cellStorage c &&& 0x7FFF8000) <<< 1) ||| (cellStorage d &&& 0x0000FFFF) := by
  rw [halves_append_eq_or, cellStorage_and_high, cellStorage_and_low, ← BitVec.shiftLeft_add]

/-- R121: and so does the form of x[1], x[2] and x[3]. -/
theorem lowHalf_append_highHalf (c d : Cell) :
    lowHalf c ++ highHalf d = ((cellStorage c &&& 0x0000FFFF) <<< 16) ||| (cellStorage d >>> 15) := by
  rw [halves_append_eq_or, cellStorage_and_low, cellStorage_shiftRight]

theorem highHalf_append_lowHalf_toNat (c d : Cell) :
    (highHalf c ++ lowHalf d).toNat = c.toNat / 2 ^ 15 * 2 ^ 16 + d.toNat % 2 ^ 16 := by
  rw [halves_append_toNat, highHalf_toNat, lowHalf_toNat]

theorem lowHalf_append_highHalf_toNat (c d : Cell) :
    (lowHalf c ++ highHalf d).toNat = c.toNat % 2 ^ 16 * 2 ^ 16 + d.toNat / 2 ^ 15 := by
  rw [halves_append_toNat, lowHalf_toNat, highHalf_toNat]

@[simp] theorem br_getElem_zero (s : Cells) : (br s)[0] = highHalf s[15] ++ lowHalf s[14] := rfl

@[simp] theorem br_getElem_one (s : Cells) : (br s)[1] = lowHalf s[11] ++ highHalf s[9] := rfl

@[simp] theorem br_getElem_two (s : Cells) : (br s)[2] = lowHalf s[7] ++ highHalf s[5] := rfl

@[simp] theorem br_getElem_three (s : Cells) : (br s)[3] = lowHalf s[2] ++ highHalf s[0] := rfl

end Sys2Proof.Machine
end

section
/-! The settled statements of 41_bit_reconstruction.md: BR's four words as numbers, and the source's form of them. -/

namespace Sys2Proof.Machine

/-- Settles O19: each word is one half above another. -/
theorem brBuildsWordsFromHalves : Obligations.BrBuildsWordsFromHalves := by
  intro s
  rw [br_getElem_zero, br_getElem_one, br_getElem_two, br_getElem_three]
  exact ⟨highHalf_append_lowHalf_toNat _ _, lowHalf_append_highHalf_toNat _ _, lowHalf_append_highHalf_toNat _ _,
    lowHalf_append_highHalf_toNat _ _⟩

/-- Settles O20, word by word: the first has its own form, the other three share one. -/
theorem brEqualsShiftAndMask : Obligations.BrEqualsShiftAndMask := by
  intro s
  simp only [br, brShiftMask, highHalf_append_lowHalf, lowHalf_append_highHalf]

end Sys2Proof.Machine
end

section
/-! SUPPORT. ROTL32 and the two linear layers (42_nonlinear_f.md R130..R132): the layers are XORs of rotations, and a rotation of
an XOR is the XOR of the rotations. -/

namespace Sys2Proof.Machine

/-- R130: for an amount below the width, ROTL32 is the library's left rotation. -/
theorem rotl32_eq_rotateLeft (v : Word) {k : Nat} (hk : k < 32) : rotl32 v k = v.rotateLeft k :=
  (BitVec.rotateLeft_eq_rotateLeftAux_of_lt hk).symm

theorem rotateLeft_xor (a b : Word) (k : Nat) : (a ^^^ b).rotateLeft k = a.rotateLeft k ^^^ b.rotateLeft k := by
  ext i hi
  simp only [BitVec.getElem_rotateLeft, BitVec.getElem_xor]
  split <;> rfl

theorem l1_eq_rotateLeft (v : Word) :
    l1 v = v ^^^ v.rotateLeft 2 ^^^ v.rotateLeft 10 ^^^ v.rotateLeft 18 ^^^ v.rotateLeft 24 := by
  simp (disch := decide) only [l1, rotl32_eq_rotateLeft]

theorem l2_eq_rotateLeft (v : Word) :
    l2 v = v ^^^ v.rotateLeft 8 ^^^ v.rotateLeft 14 ^^^ v.rotateLeft 22 ^^^ v.rotateLeft 30 := by
  simp (disch := decide) only [l2, rotl32_eq_rotateLeft]

theorem l1_xor (a b : Word) : l1 (a ^^^ b) = l1 a ^^^ l1 b := by
  simp only [l1_eq_rotateLeft, rotateLeft_xor]
  ac_rfl

theorem l2_xor (a b : Word) : l2 (a ^^^ b) = l2 a ^^^ l2 b := by
  simp only [l2_eq_rotateLeft, rotateLeft_xor]
  ac_rfl

end Sys2Proof.Machine
end

section
/-! SUPPORT. The S layer (42_nonlinear_f.md R133): S0 and S1 are permutations of the bytes (20_memory.md R52, R53), and each works on
lanes of its own. That a table takes every byte value is read off the set of its values, held as the bits of one number: this
evaluates the table once for each byte, where comparing its entries with one another would take 65,536 comparisons. -/

namespace Sys2Proof.Machine

/-- The values of `f` at the first `n` bytes, as a set: bit `i` stands for the value `i`. -/
def valueSet (f : Byte → Byte) : Nat → Nat
  | 0 => 0
  | n + 1 => valueSet f n ||| 2 ^ (f (BitVec.ofNat 8 n)).toNat

theorem exists_of_testBit_valueSet {f : Byte → Byte} {i n : Nat} (h : (valueSet f n).testBit i = true) :
    ∃ a, (f a).toNat = i := by
  induction n with
  | zero => simp [valueSet] at h
  | succ n ih =>
    rw [valueSet, Nat.testBit_or, Bool.or_eq_true, Nat.testBit_two_pow, decide_eq_true_iff] at h
    exact h.elim ih fun hn => ⟨_, hn⟩

/-- A byte function that takes all 256 values is a permutation. -/
theorem bijective_of_valueSet {f : Byte → Byte} (h : valueSet f 256 = 2 ^ 256 - 1) : Function.Bijective f := by
  refine Function.Surjective.bijective_of_finite fun b => ?_
  have hb : (valueSet f 256).testBit b.toNat = true := by
    rw [h, Nat.testBit_two_pow_sub_one, decide_eq_true b.isLt]
  obtain ⟨a, ha⟩ := exists_of_testBit_valueSet hb
  exact ⟨a, BitVec.eq_of_toNat_eq ha⟩

theorem romS0_bijective : Function.Bijective romS0 := bijective_of_valueSet (by decide +kernel)

theorem romS1_bijective : Function.Bijective romS1 := bijective_of_valueSet (by decide +kernel)

theorem sbox_lanes (v : Word) :
    (sbox v).extractLsb' 24 8 = romS0 (v.extractLsb' 24 8) ∧ (sbox v).extractLsb' 16 8 = romS1 (v.extractLsb' 16 8) ∧
    (sbox v).extractLsb' 8 8 = romS0 (v.extractLsb' 8 8) ∧ (sbox v).extractLsb' 0 8 = romS1 (v.extractLsb' 0 8) :=
  extractLsb'_append_bytes _ _ _ _

theorem sbox_append_bytes (a b c d : Byte) : sbox (a ++ b ++ c ++ d) = romS0 a ++ romS1 b ++ romS0 c ++ romS1 d := by
  obtain ⟨ha, hb, hc, hd⟩ := extractLsb'_append_bytes a b c d
  rw [sbox, ha, hb, hc, hd]

/-- R133: every word is reached, byte by byte, because S0 and S1 reach every byte. -/
theorem sbox_bijective : Function.Bijective sbox := by
  refine Function.Surjective.bijective_of_finite fun w => ?_
  obtain ⟨a, ha⟩ := romS0_bijective.surjective (w.extractLsb' 24 8)
  obtain ⟨b, hb⟩ := romS1_bijective.surjective (w.extractLsb' 16 8)
  obtain ⟨c, hc⟩ := romS0_bijective.surjective (w.extractLsb' 8 8)
  obtain ⟨d, hd⟩ := romS1_bijective.surjective (w.extractLsb' 0 8)
  exact ⟨a ++ b ++ c ++ d, by rw [sbox_append_bytes, ha, hb, hc, hd, append_bytes_eq]⟩

end Sys2Proof.Machine
end

section
/-! SUPPORT. F (42_nonlinear_f.md R134): what it puts in each place of its result, with the concatenations as shifts
(90_conflicts.md C3), and the words it reads. -/

namespace Sys2Proof.Machine

/-- A low half above a high half, as the two words shifted: each shift brings in zeros where the other word's half stands. -/
theorem extractLsb'_low_append_high (v w : Word) :
    v.extractLsb' 0 16 ++ w.extractLsb' 16 16 = (v <<< 16) ||| (w >>> 16) := by
  have hlow : v <<< 16 = v.extractLsb' 0 16 ++ 0#16 := BitVec.shiftLeft_eq_concat_of_lt (by decide)
  have hhigh : w >>> 16 = 0#16 ++ w.extractLsb' 16 16 := BitVec.ushiftRight_eq_extractLsb'_of_lt (by decide)
  rw [hlow, hhigh, BitVec.or_append, BitVec.or_zero, BitVec.zero_or]

theorem nonlinearF_w (x : XBuf) (r1 r2 : Word) : (nonlinearF x r1 r2).w = (x[0] ^^^ r1) + r2 := rfl

theorem nonlinearF_r1 (x : XBuf) (r1 r2 : Word) :
    (nonlinearF x r1 r2).r1 = sbox (l1 (((r1 + x[1]) <<< 16) ||| ((r2 ^^^ x[2]) >>> 16))) := by
  rw [← extractLsb'_low_append_high, nonlinearF]

theorem nonlinearF_r2 (x : XBuf) (r1 r2 : Word) :
    (nonlinearF x r1 r2).r2 = sbox (l2 (((r2 ^^^ x[2]) <<< 16) ||| ((r1 + x[1]) >>> 16))) := by
  rw [← extractLsb'_low_append_high, nonlinearF]

/-- R134: F reads x[0], x[1] and x[2], and never x[3]. -/
theorem nonlinearF_congr {x y : XBuf} (r1 r2 : Word) (h0 : x[0] = y[0]) (h1 : x[1] = y[1]) (h2 : x[2] = y[2]) :
    nonlinearF x r1 r2 = nonlinearF y r1 r2 := by
  simp only [nonlinearF, h0, h1, h2]

end Sys2Proof.Machine
end

section
/-! The settled statements of 42_nonlinear_f.md: the linear layers, the S layer and F. The spec's corner values and examples are
evaluated. -/

namespace Sys2Proof.Machine

/-- Settles O21: every amount used is below 32, and both layers are XORs of rotations. -/
theorem linearLayersRotateAndXor : Obligations.LinearLayersRotateAndXor := by
  have hlt : ∀ k ∈ [2, 8, 10, 14, 18, 22, 24, 30], k < 32 := by decide
  exact ⟨fun v k hk => rotl32_eq_rotateLeft v (hlt k hk), by decide, l1_eq_rotateLeft, l2_eq_rotateLeft,
    fun a b => ⟨l1_xor a b, l2_xor a b⟩, by decide, by decide⟩

/-- Settles O22: the lanes by their places in the word, the bijection from the two tables'. -/
theorem sboxSubstitutesFourLanes : Obligations.SboxSubstitutesFourLanes :=
  ⟨sbox_lanes, sbox_bijective, by decide⟩

/-- Settles O23, place by place of F's result. -/
theorem nonlinearFComputesFromOldRegisters : Obligations.NonlinearFComputesFromOldRegisters :=
  ⟨fun x r1 r2 => ⟨nonlinearF_w x r1 r2, nonlinearF_r1 x r1 r2, nonlinearF_r2 x r1 r2⟩,
    fun _ _ r1 r2 => nonlinearF_congr r1 r2, by decide⟩

end Sys2Proof.Machine
end

section
/-! SUPPORT. A state whose registers can be read for a round, and what the controller's step, a LOAD and a GEN answer where they
complete (43_controller.md R151 to R154). -/

namespace Sys2Proof.Machine

/-- The registers hold the values of `d`, and no cell is 0, so a round can read them (10_state.md R35; 92_eei_decisions.md D25). -/
structure HoldsDatapath (d : Datapath) (s : State) : Prop where
  cells : s.cells = some d.cells
  r1 : s.r1 = some d.r1
  r2 : s.r2 = some d.r2
  legal : cellsLegal d.cells = true

theorem withDatapath_of_holds {d : Datapath} {s : State} (h : HoldsDatapath d s) (k : Datapath → StepOutcome) :
    withDatapath s k = k d :=
  withDatapath_of_legal k h.cells h.r1 h.r2 h.legal

theorem holdsDatapath_writeDatapath {d : Datapath} (hl : cellsLegal d.cells = true) (x : Option XBuf) (s : State) :
    HoldsDatapath d (writeDatapath d x s) :=
  ⟨rfl, rfl, rfl, hl⟩

/-- Writing the values the registers hold changes nothing. -/
theorem writeDatapath_of_holds {d : Datapath} {s : State} (h : HoldsDatapath d s) : writeDatapath d s.x s = s := by
  simp [writeDatapath, ← h.cells, ← h.r1, ← h.r2]

/-- R152: an init round on the values read. -/
theorem controllerStep_of_init_round {d : Datapath} {s : State} (hp : s.phase = .init) (hk : s.round.toNat < 32)
    (hd : HoldsDatapath d s) : controllerStep s =
      .next (writeDatapath (initRoundData d).next (some (initRoundData d).x) { s with round := s.round + 1 }) :=
  (controllerStep_eq_initRound hp hk).trans (withDatapath_of_holds hd _)

/-- R153: the warm-up round on the values read. -/
theorem controllerStep_of_warmup_round {d : Datapath} {s : State} (hp : s.phase = .init) (hk : s.round.toNat = 32)
    (hd : HoldsDatapath d s) : controllerStep s =
      .next (writeDatapath (workRoundData d).next (some (workRoundData d).x) { s with phase := .ready, round := 33 }) :=
  (controllerStep_eq_warmupRound hp hk).trans (withDatapath_of_holds hd _)

/-- R154, R182: in READY with room, a GEN on the values read. -/
theorem execGen_of_holds {d : Datapath} {s : State} (hp : s.phase = .ready) (hr : s.resp.length ≠ Config.respDepth)
    (hd : HoldsDatapath d s) : execGen s =
      .next (emit (roundZ (workRoundData d)) (writeDatapath (workRoundData d).next (some (workRoundData d).x) (retire 1 s))) :=
  (execGen_of_ready_room hp hr).trans (withDatapath_of_holds (s := retire 1 s) ⟨hd.cells, hd.r1, hd.r2, hd.legal⟩ _)

/-- R181: in UNINIT and READY a LOAD is performed. -/
theorem execLoad_of_uninit_or_ready (key iv : Bytes16) {s : State} (hp : s.phase = .uninit ∨ s.phase = .ready) :
    execLoad key iv s = .next (keyLoad key iv (retire 9 s)) := by
  rcases hp with hp | hp <;> simp [execLoad, hp]

/-- R151: a loaded cell as a number. -/
theorem keyCell_toNat (key iv : Bytes16) (i : Fin 16) :
    (keyCell key iv i).toNat = key[i].toNat * 2 ^ 23 + (romD i).toNat * 2 ^ 8 + iv[i].toNat := by
  have hiv : iv[i].toNat < 2 ^ 8 := iv[i].isLt
  have hrom : (romD i).toNat < 2 ^ 15 := (romD i).isLt
  rw [keyCell, BitVec.toNat_append, BitVec.toNat_append, ← Nat.shiftLeft_add_eq_or_of_lt hrom,
    ← Nat.shiftLeft_add_eq_or_of_lt hiv, Nat.shiftLeft_eq, Nat.shiftLeft_eq]
  omega

end Sys2Proof.Machine
end

section
/-! SUPPORT. A run of init rounds (43_controller.md R152, R158), one planned controller move each. -/

namespace Sys2Proof.Machine

theorem cellsLegal_initRoundsFrom {n : Nat} {d : Datapath} (hl : cellsLegal d.cells = true) :
    cellsLegal (initRoundsFrom n d).cells = true := by
  induction n generalizing d with
  | zero => exact hl
  | succ n ih => exact ih (cellsLegal_initRoundData hl)

/-- `n` controller steps from INIT, while the round count stays within 32: `n` init rounds on the registers, and the rest of the
state as it was. Only `x`, which no round reads, is left open. -/
theorem run_initRounds {n : Nat} {d : Datapath} {s : State} {rest : List Turn} (hp : s.phase = .init)
    (hn : s.round.toNat + n ≤ 32) (hd : HoldsDatapath d s) (hs : s.sched = List.replicate n .controller ++ rest) :
    ∃ x, Sys2Proof.core.run n s = .next
      (writeDatapath (initRoundsFrom n d) x { s with round := s.round + BitVec.ofNat 6 n, sched := rest }) := by
  induction n generalizing d s with
  | zero =>
    have hself : writeDatapath d s.x { s with round := s.round + BitVec.ofNat 6 0, sched := rest } = s := by
      rw [BitVec.add_zero, ← show s.sched = rest from hs]
      exact writeDatapath_of_holds hd
    exact ⟨s.x, congrArg _ hself.symm⟩
  | succ n ih =>
    rw [List.replicate_succ, List.cons_append] at hs
    have hstep := controllerStep_of_init_round (s := { s with sched := List.replicate n .controller ++ rest }) hp
      (show s.round.toNat < 32 by omega) ⟨hd.cells, hd.r1, hd.r2, hd.legal⟩
    have hround : (s.round + 1).toNat + n ≤ 32 := by bv_omega
    obtain ⟨x, hx⟩ := ih (s := writeDatapath (initRoundData d).next (some (initRoundData d).x)
      { s with round := s.round + 1, sched := List.replicate n .controller ++ rest }) hp hround
      (holdsDatapath_writeDatapath (cellsLegal_initRoundData hd.legal) _ _) rfl
    refine ⟨x, (run_succ_of_cons hs hstep).trans (hx.trans ?_)⟩
    have hsum : s.round + 1 + BitVec.ofNat 6 n = s.round + BitVec.ofNat 6 (n + 1) := by
      rw [BitVec.add_assoc, Nat.add_comm, BitVec.ofNat_add]
      rfl
    rw [← hsum]
    rfl

end Sys2Proof.Machine
end

section
/-! SUPPORT. States that agree on the generator (43_controller.md R157) hold the same registers. -/

namespace Sys2Proof.Machine

theorem HoldsDatapath.of_sameGenerator {d : Datapath} {s s' : State} (hsame : SameGenerator s s') (hd : HoldsDatapath d s) :
    HoldsDatapath d s' := by
  obtain ⟨-, -, hcells, hr1, hr2⟩ := hsame
  exact ⟨hcells ▸ hd.cells, hr1 ▸ hd.r1, hr2 ▸ hd.r2, hd.legal⟩

/-- R157: the controller's step reads phase, round, cells, r1 and r2 alone. -/
theorem controllerStep_sameGenerator {s s' t : State} (hsame : SameGenerator s s') (h : controllerStep s = .next t) :
    ∃ t', controllerStep s' = .next t' ∧ SameGenerator t t' := by
  have hphase : s.phase = s'.phase := hsame.1
  have hround : s.round = s'.round := hsame.2.1
  obtain ⟨hp, rfl⟩ | ⟨hp, d, hc, h1, h2, hl, hcase⟩ := controllerStep_next h
  · exact ⟨s', controllerStep_of_not_init (hphase ▸ hp), hsame⟩
  · have hd' : HoldsDatapath d s' := .of_sameGenerator hsame ⟨hc, h1, h2, hl⟩
    obtain ⟨hk, rfl⟩ | ⟨hk, rfl⟩ := hcase
    · exact ⟨_, controllerStep_of_init_round (hphase ▸ hp) (hround ▸ hk) hd',
        hphase, congrArg (· + 1) hround, rfl, rfl, rfl⟩
    · exact ⟨_, controllerStep_of_warmup_round (hphase ▸ hp) (hround ▸ hk) hd', rfl, rfl, rfl, rfl, rfl⟩

/-- R157: in READY with room in both FIFOs, a GEN emits the same word in both states. -/
theorem execGen_sameGenerator {s s' t : State} (hsame : SameGenerator s s') (hp : s.phase = .ready)
    (hr : s.resp.length ≠ Config.respDepth) (hr' : s'.resp.length ≠ Config.respDepth) (h : execGen s = .next t) :
    ∃ t' z, execGen s' = .next t' ∧ SameGenerator t t' ∧ t.resp = s.resp ++ [z] ∧ t'.resp = s'.resp ++ [z] := by
  obtain ⟨hphase, hround, -⟩ := id hsame
  obtain ⟨-, -, d, hc, h1, h2, hl, rfl⟩ | ⟨hheld, -⟩ | ⟨hu, -⟩ | ⟨hf, -⟩ := execGen_next h
  · have hd' : HoldsDatapath d s' := .of_sameGenerator hsame ⟨hc, h1, h2, hl⟩
    exact ⟨_, roundZ (workRoundData d), execGen_of_holds (hphase ▸ hp) hr' hd', ⟨hphase, hround, rfl, rfl, rfl⟩, rfl, rfl⟩
  · simp [hp, hr] at hheld
  · simp [hp] at hu
  · simp [hp] at hf

end Sys2Proof.Machine
end

section
/-! SUPPORT. What each agent's move does to phase, round and cause (43_controller.md R150). -/

namespace Sys2Proof.Machine

/-- Two states agree on the controller: phase, round and cause. -/
def SameControl (s t : State) : Prop := t.phase = s.phase ∧ t.round = s.round ∧ t.cause = s.cause

theorem SameControl.refl (s : State) : SameControl s s := ⟨rfl, rfl, rfl⟩

theorem sameControl_popTurn (s : State) : SameControl s (popTurn s) := by simp [SameControl]

/-- The controller moves only in INIT: one round on up to 32, then to (READY, 33). -/
theorem controllerStep_control {s t : State} (h : StateInv s) (ht : controllerStep s = .next t) :
    SameControl s t ∨
    (s.phase = .init ∧ s.round.toNat ≤ 31 ∧ t.phase = .init ∧ t.round = s.round + 1 ∧ t.cause = .none) ∨
    (s.phase = .init ∧ s.round = 32 ∧ t.phase = .ready ∧ t.round = 33 ∧ t.cause = .none) := by
  obtain ⟨-, rfl⟩ | ⟨hp, d, -, -, -, -, hcase⟩ := controllerStep_next ht
  · exact .inl (.refl t)
  · have hcause : s.cause = .none := cause_eq_none_of_controlOk h.1 (by simp [hp])
    obtain ⟨hk, rfl⟩ | ⟨hk, rfl⟩ := hcase
    · exact .inr (.inl ⟨hp, Nat.le_of_lt_succ hk, hp, rfl, hcause⟩)
    · exact .inr (.inr ⟨hp, BitVec.eq_of_toNat_eq hk, rfl, rfl, hcause⟩)

/-- A command moves the controller only where it completes as LOAD in UNINIT or READY, or faults as GEN in UNINIT. -/
theorem exec_control {i : Instr} {s t : State} (h : StateInv s) (ht : exec i s = .next t) :
    SameControl s t ∨
    ((∃ key iv, i = .load key iv) ∧ (s.phase = .uninit ∨ s.phase = .ready) ∧ t.phase = .init ∧ t.round = 0 ∧ t.cause = .none) ∨
    (i = .gen ∧ s.phase = .uninit ∧ t.phase = .fault ∧ t.round = 0 ∧ t.cause = .notReady) := by
  cases i with
  | load key iv =>
    obtain ⟨hp, rfl⟩ | ⟨-, rfl⟩ | ⟨-, rfl⟩ := execLoad_next ht
    · have hcause : s.cause = .none := cause_eq_none_of_controlOk h.1 (by rcases hp with hp | hp <;> simp [hp])
      exact .inr (.inl ⟨⟨key, iv, rfl⟩, hp, rfl, rfl, hcause⟩)
    · exact .inl (.refl t)
    · exact .inl (.refl s)
  | gen =>
    obtain ⟨-, -, d, -, -, -, -, rfl⟩ | ⟨-, rfl⟩ | ⟨hp, rfl⟩ | ⟨-, rfl⟩ := execGen_next ht
    · exact .inl (.refl s)
    · exact .inl (.refl t)
    · exact .inr (.inr ⟨rfl, hp, rfl, ((controlOk_of_uninit hp).mp h.1).1, rfl⟩)
    · exact .inl (.refl s)
  | status =>
    obtain ⟨-, rfl⟩ | ⟨-, rfl⟩ := execStatus_next ht
    · exact .inl (.refl t)
    · exact .inl (.refl s)

/-- An illegal header moves the controller into FAULT, once. -/
theorem illegalHeader_control {s t : State} (ht : illegalHeader s = .next t) :
    SameControl s t ∨ (s.phase ≠ .fault ∧ t.phase = .fault ∧ t.round = s.round ∧ t.cause = .illegalCommand) := by
  obtain ⟨-, rfl⟩ | ⟨hp, rfl⟩ := illegalHeader_next ht
  · exact .inl (.refl s)
  · exact .inr ⟨hp, rfl, rfl, rfl⟩

/-- An acceptance step moves the controller only by the frame it finds at the head of the command port. -/
theorem acceptTurn_control {s t : State} (h : StateInv s) (ht : acceptTurn s = .next t) :
    SameControl s t ∨
    ((∃ key iv rest, decode (s.pend ++ s.port) = .frame (.load key iv) rest) ∧ (s.phase = .uninit ∨ s.phase = .ready) ∧
      t.phase = .init ∧ t.round = 0 ∧ t.cause = .none) ∨
    ((∃ rest, decode (s.pend ++ s.port) = .frame .gen rest) ∧ s.phase = .uninit ∧
      t.phase = .fault ∧ t.round = 0 ∧ t.cause = .notReady) ∨
    ((∃ w rest, decode (s.pend ++ s.port) = .illegal w rest) ∧ s.phase ≠ .fault ∧
      t.phase = .fault ∧ t.round = s.round ∧ t.cause = .illegalCommand) := by
  obtain ⟨i, rest, hd, he⟩ | ⟨w, rest, hd, hi⟩ | ⟨-, rfl⟩ | ⟨-, rfl⟩ := acceptTurn_next ht
  · obtain hsame | ⟨⟨key, iv, rfl⟩, hload⟩ | ⟨rfl, hgen⟩ := exec_control h he
    · exact .inl hsame
    · exact .inr (.inl ⟨⟨key, iv, rest, hd⟩, hload⟩)
    · exact .inr (.inr (.inl ⟨⟨rest, hd⟩, hgen⟩))
  · obtain hsame | hfault := illegalHeader_control hi
    · exact .inl hsame
    · exact .inr (.inr (.inr ⟨⟨w, rest, hd⟩, hfault⟩))
  · exact .inl (.refl s)
  · exact .inl (.refl t)

end Sys2Proof.Machine
end

section
/-! The settled statements of 43_controller.md: the transition table, the LOAD, the three kinds of round, the 33 steps to READY,
and what the keystream depends on. -/

namespace Sys2Proof.Machine

/-- Settles O24, agent by agent: a send and a pop write the ports alone, and the other moves are rows of the table. -/
theorem controllerTransitionsAreTheTable : Obligations.ControllerTransitionsAreTheTable := by
  intro s t h ht
  rw [step_eq] at ht
  have hinv : StateInv { s with sched := s.sched.tail } := h
  generalize (nextTurn s).1 = turn at ht ⊢
  cases turn with
  | send host w =>
    obtain ⟨-, rfl⟩ := sendTurn_next ht
    exact .inl (SameControl.refl s)
  | accept =>
    obtain hsame | hload | hgen | hillegal := acceptTurn_control hinv ht
    · exact .inl hsame
    · exact .inr (.inr (.inl ⟨rfl, hload⟩))
    · exact .inr (.inr (.inr (.inr (.inr (.inl ⟨rfl, hgen⟩)))))
    · exact .inr (.inr (.inr (.inr (.inr (.inr ⟨rfl, hillegal⟩)))))
  | controller =>
    obtain hsame | hinit | hwarmup := controllerStep_control hinv ht
    · exact .inl hsame
    · exact .inr (.inr (.inr (.inl ⟨rfl, hinit⟩)))
    · exact .inr (.inr (.inr (.inr (.inl ⟨rfl, hwarmup⟩))))
  | pop =>
    cases ht
    exact .inl (sameControl_popTurn { s with sched := s.sched.tail })
  | reset =>
    cases ht
    exact .inr (.inl ⟨rfl, rfl, rfl, rfl⟩)

/-- Settles O25: the cells are `keyCells`, by the number each one is and its range. -/
theorem loadKeysTheGenerator : Obligations.LoadKeysTheGenerator := by
  intro key iv s hp
  refine ⟨keyCells key iv, fun i => ⟨?_, keyCells_toNat_mem key iv i⟩, execLoad_of_uninit_or_ready key iv hp⟩
  simpa [keyCells] using keyCell_toNat key iv i

/-- Settles O30: the schedule is cut after `k` moves for the round count, and after 32 for the warm-up round. -/
theorem thirtyThreeControllerStepsReachReady : Obligations.ThirtyThreeControllerStepsReachReady := by
  intro s d rest hp hround hc h1 h2 hl hs
  have hd : HoldsDatapath d s := ⟨hc, h1, h2, hl⟩
  have hzero : s.round.toNat = 0 := congrArg BitVec.toNat hround
  refine ⟨fun k hk => ?_, ?_⟩
  · have hcut : s.sched = List.replicate k .controller ++ (List.replicate (33 - k) .controller ++ rest) := by
      rw [hs, ← List.append_assoc, ← List.replicate_add, Nat.add_sub_cancel' hk.le]
    obtain ⟨x, hx⟩ := run_initRounds hp (by omega) hd hcut
    have hcount : (s.round + BitVec.ofNat 6 k).toNat = k := by bv_omega
    exact ⟨_, hx, hp, hcount⟩
  · obtain ⟨x, hx⟩ := run_initRounds (n := 32) (rest := .controller :: rest) hp (by omega) hd hs
    rw [hround] at hx
    have hwarmup := controllerStep_of_warmup_round
      (s := writeDatapath (initRoundsFrom 32 d) x { s with round := 0 + BitVec.ofNat 6 32, sched := rest }) hp rfl
      (holdsDatapath_writeDatapath (cellsLegal_initRoundsFrom hl) _ _)
    exact (run_add (k := 1) hx).trans (run_succ_of_cons rfl hwarmup)

/-- Settles O31, move by move: what each writes is a function of what the two states agree on. -/
theorem keystreamDependsOnKeyAndIvOnly : Obligations.KeystreamDependsOnKeyAndIvOnly :=
  ⟨fun key iv _ _ hp hp' => ⟨_, _, execLoad_of_uninit_or_ready key iv hp, execLoad_of_uninit_or_ready key iv hp',
      rfl, rfl, rfl, rfl, rfl⟩,
    fun _ _ _ => controllerStep_sameGenerator, fun _ _ _ => execGen_sameGenerator⟩

/-- Settles O26: `w >>> 1` in 31 bits is, by definition, the bits of `w` that the round reads. -/
theorem controllerRunsInitRound : Obligations.ControllerRunsInitRound := fun _ cells a b hp hk hc h1 h2 hl =>
  controllerStep_of_init_round (d := ⟨cells, a, b⟩) hp (Nat.lt_succ_of_le hk) ⟨hc, h1, h2, hl⟩

/-- Settles O27, by the warm-up round's equation. -/
theorem controllerRunsWarmupRound : Obligations.ControllerRunsWarmupRound := fun _ cells a b hp hk hc h1 h2 hl =>
  controllerStep_of_warmup_round (d := ⟨cells, a, b⟩) hp (by simp [hk]) ⟨hc, h1, h2, hl⟩

/-- Settles O28, by GEN's equation: `w ^ x[3]` is its round's word. -/
theorem genEmitsKeystreamWord : Obligations.GenEmitsKeystreamWord := fun _ cells a b hp hr hc h1 h2 hl =>
  execGen_of_holds (d := ⟨cells, a, b⟩) hp hr ⟨hc, h1, h2, hl⟩

/-- Settles O29, phase by phase. -/
theorem controllerHasNoStepOutsideInit : Obligations.ControllerHasNoStepOutsideInit := fun _ =>
  controllerStep_of_not_init

end Sys2Proof.Machine
end

section
/-! SUPPORT. What the acceptance of each command answers where it is held, discarded or faulted
(44_host_commands.md R181 to R183, R185; 60_exceptions.md R213, R214). -/

namespace Sys2Proof.Machine

/-- R181, R213: in FAULT a LOAD is discarded. -/
theorem execLoad_of_fault (key iv : Bytes16) {s : State} (hp : s.phase = .fault) :
    execLoad key iv s = .next (retire 9 s) := by
  simp [execLoad, hp, discardFrame]

/-- R182: in READY a GEN is held while the FIFO is full. -/
theorem execGen_of_ready_full {s : State} (hp : s.phase = .ready) (hr : s.resp.length = Config.respDepth) :
    execGen s = .next s := by
  simp [execGen, hp, hr, holdFrame]

/-- R182, R214: in UNINIT a GEN raises NOT_READY. -/
theorem execGen_of_uninit {s : State} (hp : s.phase = .uninit) : execGen s = .next (raiseFault .notReady 1 s) := by
  simp [execGen, hp]

/-- R182, R213: in FAULT a GEN is discarded. -/
theorem execGen_of_fault {s : State} (hp : s.phase = .fault) : execGen s = .next (retire 1 s) := by
  simp [execGen, hp, discardFrame]

/-- R183: a STATUS is held while the FIFO is full. -/
theorem execStatus_of_full {s : State} (hr : s.resp.length = Config.respDepth) : execStatus s = .next s :=
  if_pos hr

/-- R185, R216: the frames that are held, and in which states: a LOAD and a GEN in INIT, a GEN in READY and a STATUS in any phase
while the FIFO is full. -/
def Held (i : Instr) (s : State) : Prop :=
  (i ≠ .status ∧ s.phase = .init) ∨ (i = .gen ∧ s.phase = .ready ∧ s.resp.length = Config.respDepth) ∨
    (i = .status ∧ s.resp.length = Config.respDepth)

theorem exec_of_held {i : Instr} {s : State} (h : Held i s) : exec i s = .next s := by
  obtain ⟨hi, hp⟩ | ⟨rfl, hp, hr⟩ | ⟨rfl, hr⟩ := h
  · cases i with
    | load key iv => exact execLoad_of_init key iv hp
    | gen => exact execGen_of_init hp
    | status => contradiction
  · exact execGen_of_ready_full hp hr
  · exact execStatus_of_full hr

/-- Outside INIT CORE's own move is an acceptance step (log entry 3). -/
theorem ownTurn_of_not_init {s : State} (hp : s.phase ≠ .init) : ownTurn s = .accept := by
  unfold ownTurn
  split
  · contradiction
  all_goals rfl

end Sys2Proof.Machine
end

section
/-! SUPPORT. What each agent's move does to the response words, those delivered and those waiting
(44_host_commands.md R186; 20_memory.md R57, R59). -/

namespace Sys2Proof.Machine

/-- Two states agree on the response words: those waiting and those delivered. -/
def SameResponses (s t : State) : Prop := t.resp = s.resp ∧ t.delivered = s.delivered

theorem SameResponses.refl (s : State) : SameResponses s s := ⟨rfl, rfl⟩

/-- One word joins the end of the FIFO, and none is delivered. -/
def EmitsOne (s t : State) : Prop := ∃ z, t.resp = s.resp ++ [z] ∧ t.delivered = s.delivered

/-- The controller emits nothing (R152, R153). -/
theorem controllerStep_sameResponses {s t : State} (h : controllerStep s = .next t) : SameResponses s t := by
  obtain ⟨-, rfl⟩ | ⟨-, d, -, -, -, -, ⟨-, rfl⟩ | ⟨-, rfl⟩⟩ := controllerStep_next h <;> exact ⟨rfl, rfl⟩

/-- R182, R183: only a GEN and a STATUS emit, one word each. -/
theorem exec_responses {i : Instr} {s t : State} (h : exec i s = .next t) :
    SameResponses s t ∨ ((i = .gen ∨ i = .status) ∧ EmitsOne s t) := by
  cases i with
  | load key iv =>
    obtain ⟨-, rfl⟩ | ⟨-, rfl⟩ | ⟨-, rfl⟩ := execLoad_next h <;> exact .inl ⟨rfl, rfl⟩
  | gen =>
    obtain ⟨-, -, d, -, -, -, -, rfl⟩ | ⟨-, rfl⟩ | ⟨-, rfl⟩ | ⟨-, rfl⟩ := execGen_next h
    · exact .inr ⟨.inl rfl, roundZ (workRoundData d), rfl, rfl⟩
    all_goals exact .inl ⟨rfl, rfl⟩
  | status =>
    obtain ⟨-, rfl⟩ | ⟨-, rfl⟩ := execStatus_next h
    · exact .inl ⟨rfl, rfl⟩
    · exact .inr ⟨.inr rfl, statusWord s, rfl, rfl⟩

/-- R211, R212: an illegal header emits no response. -/
theorem illegalHeader_sameResponses {s t : State} (h : illegalHeader s = .next t) : SameResponses s t := by
  obtain ⟨-, rfl⟩ | ⟨-, rfl⟩ := illegalHeader_next h <;> exact ⟨rfl, rfl⟩

/-- An acceptance step emits only where a GEN or a STATUS stands at the head of the command port. -/
theorem acceptTurn_responses {s t : State} (h : acceptTurn s = .next t) :
    SameResponses s t ∨
    ((∃ rest, decode (s.pend ++ s.port) = .frame .gen rest ∨ decode (s.pend ++ s.port) = .frame .status rest) ∧
      EmitsOne s t) := by
  obtain ⟨i, rest, hd, he⟩ | ⟨w, rest, -, hi⟩ | ⟨-, rfl⟩ | ⟨-, rfl⟩ := acceptTurn_next h
  · obtain hsame | ⟨rfl | rfl, hemit⟩ := exec_responses he
    · exact .inl hsame
    · exact .inr ⟨⟨rest, .inl hd⟩, hemit⟩
    · exact .inr ⟨⟨rest, .inr hd⟩, hemit⟩
  · exact .inl (illegalHeader_sameResponses hi)
  · exact .inl ⟨rfl, rfl⟩
  · exact .inl (.refl t)

/-- Everything a move other than a reset can do to the response words: nothing, a pop, or one word emitted at the acceptance of a
GEN or a STATUS. -/
theorem takeTurn_responses {turn : Turn} {s t : State} (hreset : turn ≠ .reset) (h : takeTurn turn s = .next t) :
    SameResponses s t ∨
    (turn = .pop ∧ t.delivered ++ t.resp = s.delivered ++ s.resp) ∨
    (turn = .accept ∧
      (∃ rest, decode (s.pend ++ s.port) = .frame .gen rest ∨ decode (s.pend ++ s.port) = .frame .status rest) ∧
      EmitsOne s t) := by
  cases turn with
  | send host w =>
    obtain ⟨-, rfl⟩ := sendTurn_next h
    exact .inl ⟨rfl, rfl⟩
  | accept =>
    obtain hsame | hemit := acceptTurn_responses h
    · exact .inl hsame
    · exact .inr (.inr ⟨rfl, hemit⟩)
  | controller => exact .inl (controllerStep_sameResponses h)
  | pop =>
    cases h
    exact .inr (.inl ⟨rfl, popTurn_words s⟩)
  | reset => exact absurd rfl hreset

end Sys2Proof.Machine
end

section
/-! SUPPORT. A whole frame sent to idle ports and accepted (30_encoding.md R72; 44_host_commands.md R180). -/

namespace Sys2Proof.Machine

/-- A frame sent to an idle command port and accepted is `exec` of its command, with the frame's words alone on the port. -/
theorem run_frameTurns {host : Nat} {i : Instr} {s t : State} {rest : List Turn} (hpend : s.pend = []) (hport : s.port = [])
    (ho : s.owner = none ∨ s.owner = some host) (hs : s.sched = frameTurns host i ++ rest)
    (ht : exec i { s with port := encode i, owner := some host, sched := rest } = .next t) :
    Sys2Proof.core.run (frameTurns host i).length s = .next t := by
  have hlen : (frameTurns host i).length = (encode i).length + 1 := by simp [frameTurns]
  have hsends := run_sends ho (encode_ne_nil i) (hs.trans (List.append_assoc _ _ _))
  rw [hport, List.nil_append] at hsends
  have hd : decode (s.pend ++ encode i) = .frame i [] := by
    simpa [hpend] using decode_encode_append i []
  have haccept := acceptTurn_of_frame (s := { s with port := encode i, owner := some host, sched := rest }) hd
  rw [hlen]
  exact (run_add hsends).trans (run_succ_of_cons rfl (haccept.trans ht))

/-- A frame that stood alone on the command port leaves it empty. -/
theorem retire_lone_frame {s : State} (i : Instr) (hpend : s.pend = []) (hport : s.port = []) :
    retire (encode i).length { s with port := encode i } = s := by
  have hport' : (s.pend ++ encode i).drop (encode i).length = s.port := by simp [hpend, hport]
  rw [retire, frameWords, hport', ← hpend]

/-- R181: a LOAD on idle ports, in UNINIT and READY. -/
theorem run_load_of_idle {host : Nat} {key iv : Bytes16} {s : State} {rest : List Turn}
    (hp : s.phase = .uninit ∨ s.phase = .ready) (hidle : IdlePorts host s)
    (hs : s.sched = frameTurns host (.load key iv) ++ rest) :
    Sys2Proof.core.run (frameTurns host (.load key iv)).length s =
      .next (keyLoad key iv { s with owner := some host, sched := rest }) := by
  obtain ⟨hpend, hport, -, ho⟩ := hidle
  have hretire := retire_lone_frame (s := { s with owner := some host, sched := rest }) (.load key iv) hpend hport
  refine (run_frameTurns hpend hport ho hs (execLoad_of_uninit_or_ready key iv hp)).trans ?_
  exact congrArg (Host.Outcome.next <| keyLoad key iv ·) hretire

/-- R183: a STATUS on idle ports, in every phase. -/
theorem run_status_of_idle {host : Nat} {s : State} {rest : List Turn} (hidle : IdlePorts host s)
    (hs : s.sched = frameTurns host .status ++ rest) :
    Sys2Proof.core.run (frameTurns host .status).length s =
      .next (emit (statusWord s) { s with owner := some host, sched := rest }) := by
  obtain ⟨hpend, hport, hresp, ho⟩ := hidle
  have hroom : s.resp.length ≠ Config.respDepth := by simp [hresp, Config.respDepth]
  have hretire := retire_lone_frame (s := { s with owner := some host, sched := rest }) .status hpend hport
  refine (run_frameTurns hpend hport ho hs (execStatus_of_room hroom)).trans ?_
  exact congrArg (Host.Outcome.next <| emit (statusWord s) ·) hretire

end Sys2Proof.Machine
end

section
/-! SUPPORT. The state after a LOAD and up to 33 controller steps, and what STATUS reports there (43_controller.md R155, R156;
44_host_commands.md R183). -/

namespace Sys2Proof.Machine

/-- One more init round at the end of a row of them. -/
theorem initRoundsFrom_succ (n : Nat) (d : Datapath) :
    initRoundsFrom (n + 1) d = (initRoundData (initRoundsFrom n d)).next := by
  induction n generalizing d with
  | zero => rfl
  | succ n ih => exact ih (initRoundData d).next

theorem afterLoadRounds_of_le {k : Nat} (hk : k ≤ 32) (key iv : Bytes16) :
    afterLoadRounds k key iv = initRoundsFrom k (loadedDatapath key iv) :=
  if_pos hk

/-- The registers after one more controller step, while it is an init round (R152). -/
theorem afterLoadRounds_succ {j : Nat} (hj : j < 32) (key iv : Bytes16) :
    afterLoadRounds (j + 1) key iv = (initRoundData (afterLoadRounds j key iv)).next := by
  rw [afterLoadRounds_of_le hj, afterLoadRounds_of_le hj.le, initRoundsFrom_succ]

/-- `x` after `k` controller steps that follow a LOAD: as the LOAD left it, then what the last round's BR wrote (R159). -/
def xAfterLoad (key iv : Bytes16) (x : Option XBuf) : Nat → Option XBuf
  | 0 => x
  | j + 1 => some (br (afterLoadRounds j key iv).cells)

theorem holdsDatapath_keyLoad (key iv : Bytes16) (s : State) : HoldsDatapath (loadedDatapath key iv) (keyLoad key iv s) :=
  ⟨rfl, rfl, rfl, cellsLegal_keyCells key iv⟩

/-- The state after `k` controller steps, for k up to 33, from the state `s` of a LOAD of `key` and `iv` (R155). -/
def afterLoadSteps (key iv : Bytes16) (k : Nat) (s : State) : State :=
  writeDatapath (afterLoadRounds k key iv) (xAfterLoad key iv s.x k)
    { s with phase := if k ≤ 32 then .init else .ready, round := BitVec.ofNat 6 k }

theorem afterLoadSteps_round_toNat {k : Nat} (hk : k ≤ 33) (key iv : Bytes16) (s : State) :
    (afterLoadSteps key iv k s).round.toNat = k :=
  Nat.mod_eq_of_lt (by omega)

/-- R75, R249: what STATUS reports after these steps. -/
theorem statusWord_afterLoadSteps {k : Nat} {s : State} (hk : k ≤ 33) (key iv : Bytes16) (hcause : s.cause = .none) :
    statusWord (afterLoadSteps key iv k s) = if k ≤ 32 then BitVec.ofNat 32 (256 * k + 1) else 0x00002102 := by
  by_cases h32 : k ≤ 32
  · have hp : (afterLoadSteps key iv k s).phase = .init := if_pos h32
    rw [if_pos h32, statusWord_eq hp rfl hcause, afterLoadSteps_round_toNat hk]
    simp [causeCode, phaseCode]
  · obtain rfl : k = 33 := by omega
    have hp : (afterLoadSteps key iv 33 s).phase = .ready := rfl
    rw [if_neg h32, statusWord_eq hp rfl hcause, afterLoadSteps_round_toNat hk]
    decide

/-- R152, R153: the controller's step number `j + 1` after a LOAD, an init round up to the 32nd and then the warm-up round. -/
theorem controllerStep_eq_afterLoadSteps {j : Nat} {key iv : Bytes16} {s : State} (hj : j < 33) (hp : s.phase = .init)
    (hround : s.round.toNat = j) (hd : HoldsDatapath (afterLoadRounds j key iv) s) :
    controllerStep s = .next (afterLoadSteps key iv (j + 1) s) := by
  by_cases hlt : j < 32
  · have hcount : s.round + 1 = BitVec.ofNat 6 (j + 1) := by bv_omega
    have hphase : s.phase = if j + 1 ≤ 32 then .init else .ready := hp.trans (if_pos hlt).symm
    rw [controllerStep_of_init_round hp (hround ▸ hlt) hd, afterLoadSteps, afterLoadRounds_succ hlt, ← hphase, ← hcount]
    rfl
  · obtain rfl : j = 32 := by omega
    exact controllerStep_of_warmup_round hp hround hd

/-- R155, R156: `k` controller steps from the state of a LOAD. -/
theorem run_afterLoadSteps {k : Nat} {key iv : Bytes16} {s : State} {rest : List Turn} (hk : k ≤ 33) (hp : s.phase = .init)
    (hround : s.round = 0) (hd : HoldsDatapath (loadedDatapath key iv) s)
    (hs : s.sched = List.replicate k .controller ++ rest) :
    Sys2Proof.core.run k s = .next (afterLoadSteps key iv k { s with sched := rest }) := by
  cases k with
  | zero =>
    have hself : { s with phase := .init, round := 0, sched := rest } = s := by
      rw [← hp, ← hround, ← show s.sched = rest from hs]
    exact congrArg _ ((congrArg (writeDatapath _ s.x) hself).trans (writeDatapath_of_holds hd)).symm
  | succ j =>
    have hzero : s.round.toNat = 0 := congrArg BitVec.toNat hround
    rw [List.replicate_succ', List.append_assoc] at hs
    obtain ⟨x, hx⟩ := run_initRounds hp (by omega) hd hs
    rw [← afterLoadRounds_of_le (Nat.le_of_succ_le_succ hk)] at hx
    have hlegal : cellsLegal (afterLoadRounds j key iv).cells = true := by
      rw [afterLoadRounds_of_le (Nat.le_of_succ_le_succ hk)]
      exact cellsLegal_initRoundsFrom hd.legal
    have hcount : (s.round + BitVec.ofNat 6 j).toNat = j := by bv_omega
    have hstep := controllerStep_eq_afterLoadSteps
      (s := writeDatapath (afterLoadRounds j key iv) x { s with round := s.round + BitVec.ofNat 6 j, sched := rest })
      hk hp hcount (holdsDatapath_writeDatapath hlegal _ _)
    exact (run_add hx).trans (run_succ_of_cons rfl hstep)

/-- R183, R249: on idle ports a LOAD, `k` controller steps and a STATUS, cut into these three parts. -/
theorem run_afterLoadTurns {host k : Nat} {key iv : Bytes16} {s : State} {rest : List Turn} (hk : k ≤ 33)
    (hp : s.phase = .uninit ∨ s.phase = .ready) (hidle : IdlePorts host s)
    (hs : s.sched = afterLoadTurns host key iv k ++ rest) :
    Sys2Proof.core.run (afterLoadTurns host key iv k).length s =
      .next (emit (statusWord (afterLoadSteps key iv k s))
        (afterLoadSteps key iv k { s with owner := some host, sched := rest })) := by
  have hlen : (afterLoadTurns host key iv k).length =
      (frameTurns host (.load key iv)).length + (k + (frameTurns host .status).length) := by
    simp [afterLoadTurns]
  rw [afterLoadTurns, List.append_assoc, List.append_assoc] at hs
  have hload := run_load_of_idle hp hidle hs
  have hsteps := run_afterLoadSteps (key := key) (iv := iv)
    (s := keyLoad key iv { s with
      owner := some host, sched := List.replicate k .controller ++ (frameTurns host .status ++ rest) })
    hk rfl rfl (holdsDatapath_keyLoad key iv _) rfl
  obtain ⟨hpend, hport, hresp, -⟩ := hidle
  have hstatus := run_status_of_idle (host := host) (rest := rest)
    (s := afterLoadSteps key iv k { s with owner := some host, sched := frameTurns host .status ++ rest })
    ⟨hpend, hport, hresp, .inr rfl⟩ rfl
  rw [hlen]
  exact (run_add hload).trans ((run_add hsteps).trans hstatus)

end Sys2Proof.Machine
end

section
/-! The settled statements of 44_host_commands.md: what each command does where it is held, discarded or faulted, STATUS, the order
of the responses, and what an acceptance step runs. -/

namespace Sys2Proof.Machine

/-- Settles O37: the acceptance step runs the command on the state with the move taken off, where the frame is as much held. -/
theorem heldFrameStays : Obligations.HeldFrameStays := by
  intro s i ws rest hs hd hheld
  have hheld' : Held i { s with sched := rest } := hheld
  rw [step_of_cons hs]
  exact (acceptTurn_of_frame (s := { s with sched := rest }) hd).trans (exec_of_held hheld')

/-- Settles O39, over what a move can do to the response words (`takeTurn_responses`). -/
theorem responsesComeOutInOrder : Obligations.ResponsesComeOutInOrder := by
  intro s t ht hreset
  rw [step_eq] at ht
  obtain ⟨hresp, hdelivered⟩ | ⟨hpop, hwords⟩ | ⟨haccept, hframe, z, hresp, hdelivered⟩ := takeTurn_responses hreset ht
  · exact ⟨[], by simp [hresp, hdelivered], by simp, by simp, fun _ => hdelivered⟩
  · exact ⟨[], by simpa using hwords, by simp, by simp, fun hne => absurd hpop hne⟩
  · exact ⟨[z], by simp [hresp, hdelivered], by simp, fun _ => ⟨haccept, hframe⟩, fun _ => hdelivered⟩

/-- Settles O35: the state after the run is the one of `run_afterLoadTurns`, read field by field. -/
theorem statusAfterLoadAdmitsEveryRound : Obligations.StatusAfterLoadAdmitsEveryRound := by
  intro s host key iv k rest hk hinv hp hpend hport hresp ho hs
  have hcause : s.cause = .none := cause_eq_none_of_controlOk hinv.1 (by rcases hp with hp | hp <;> simp [hp])
  refine ⟨_, run_afterLoadTurns hk hp ⟨hpend, hport, hresp, ho⟩ hs, ?_, rfl, afterLoadSteps_round_toNat hk key iv s, hcause,
    rfl, rfl, rfl, ?_, ?_, rfl, hpend, hport, rfl, rfl⟩
  · rw [statusWord_afterLoadSteps hk key iv hcause, emit_resp]
    exact congrArg (· ++ _) hresp
  · rintro rfl
    rfl
  · rintro j rfl
    rfl

/-- Settles O32, by LOAD's equations in the two phases. -/
theorem loadHeldInInitDiscardedInFault : Obligations.LoadHeldInInitDiscardedInFault := fun key iv _ =>
  ⟨execLoad_of_init key iv, execLoad_of_fault key iv⟩

/-- Settles O33, by GEN's equations in the four cases. -/
theorem genHeldFaultedOrDiscarded : Obligations.GenHeldFaultedOrDiscarded := fun _ =>
  ⟨execGen_of_ready_full, execGen_of_init, execGen_of_uninit, execGen_of_fault⟩

/-- Settles O34, by STATUS's two equations. -/
theorem statusEmitsStatusWord : Obligations.StatusEmitsStatusWord := fun _ =>
  ⟨execStatus_of_room, execStatus_of_full⟩

/-- Settles O38: a pop move always answers `popTurn`. -/
theorem popDeliversOldestWord : Obligations.PopDeliversOldestWord := by
  intro s rest hs
  rw [step_of_cons hs]
  exact ⟨fun v vs hr => congrArg _ (popTurn_of_cons (s := { s with sched := rest }) hr),
    fun hr => congrArg _ (popTurn_of_nil (s := { s with sched := rest }) hr)⟩

/-- Settles O52: both moves are an acceptance step. -/
theorem stepRunsDecodedFrame : Obligations.StepRunsDecodedFrame := by
  intro s i ws hd
  refine ⟨fun rest hs => ?_, fun hs hp => ?_⟩
  · rw [step_of_cons hs]
    exact acceptTurn_of_frame (s := { s with sched := rest }) hd
  · rw [step_of_nil hs, ownTurn_of_not_init hp]
    exact acceptTurn_of_frame hd

end Sys2Proof.Machine
end

section
/-! SUPPORT. The keystream as lists of words, bytes and bits: how many there are, and which one stands in each place
(43_controller.md R154; 30_encoding.md R80; 45_keystream_consumer.md R200, R201). -/

namespace Sys2Proof.Machine

/-- One more GEN round at the end of a row of them. -/
theorem genRoundsFrom_succ (n : Nat) (d : Datapath) :
    genRoundsFrom (n + 1) d = (workRoundData (genRoundsFrom n d)).next := by
  induction n generalizing d with
  | zero => rfl
  | succ n ih => exact ih (workRoundData d).next

@[simp] theorem length_keystreamFrom (n : Nat) (d : Datapath) : (keystreamFrom n d).length = n := by
  induction n generalizing d with
  | zero => rfl
  | succ n ih => simp [keystreamFrom, ih]

@[simp] theorem length_keystream (key iv : Bytes16) (n : Nat) : (keystream key iv n).length = n :=
  length_keystreamFrom n (constructed key iv)

/-- R154: word `j` is the word of the round after `j` GEN rounds. -/
theorem getElem?_keystreamFrom {n j : Nat} (hj : j < n) (d : Datapath) :
    (keystreamFrom n d)[j]? = some (roundZ (workRoundData (genRoundsFrom j d))) := by
  induction n generalizing j d with
  | zero => omega
  | succ n ih =>
    cases j with
    | zero => rfl
    | succ j => exact ih (Nat.lt_of_succ_lt_succ hj) (workRoundData d).next

/-- One more keystream word at the end. -/
theorem keystreamFrom_succ (n : Nat) (d : Datapath) :
    keystreamFrom (n + 1) d = keystreamFrom n d ++ [roundZ (workRoundData (genRoundsFrom n d))] := by
  induction n generalizing d with
  | zero => rfl
  | succ n ih => exact congrArg (roundZ (workRoundData d) :: ·) (ih (workRoundData d).next)

/-- Where every part of a concatenation has `m` entries, entry `i` of the whole is entry `i % m` of part `i / m`. -/
theorem getElem?_flatMap_of_length {α β : Type} {f : α → List β} {m : Nat} (hm : 0 < m) (hf : ∀ a, (f a).length = m)
    (l : List α) (i : Nat) : (l.flatMap f)[i]? = l[i / m]?.bind fun a => (f a)[i % m]? := by
  induction l generalizing i with
  | nil => simp
  | cons a l ih =>
    rw [List.flatMap_cons]
    by_cases hi : i < m
    · rw [List.getElem?_append_left (by rwa [hf]), Nat.div_eq_of_lt hi, Nat.mod_eq_of_lt hi]
      rfl
    · obtain ⟨k, rfl⟩ := Nat.exists_eq_add_of_le (not_lt.mp hi)
      rw [List.getElem?_append_right (by rw [hf]; omega), hf, Nat.add_sub_cancel_left, ih, Nat.add_div_left k hm,
        Nat.add_mod_left]
      rfl

theorem length_serWord (z : Word) : (serWord z).length = 4 := rfl

theorem length_byteBits (b : Byte) : (byteBits b).length = 8 := rfl

/-- R80: byte `k` of a word's serialization, most significant first. -/
theorem getElem?_serWord (z : Word) {k : Nat} (hk : k < 4) : (serWord z)[k]? = some (z.extractLsb' (24 - 8 * k) 8) := by
  match k with
  | 0 | 1 | 2 | 3 => rfl

/-- R201: bit `k` of a byte, most significant first. -/
theorem getElem?_byteBits (b : Byte) {k : Nat} (hk : k < 8) : (byteBits b)[k]? = some (b.getLsbD (7 - k)) := by
  simp [byteBits, hk, BitVec.getMsbD]

@[simp] theorem length_keystreamBytes (words : List Word) : (keystreamBytes words).length = 4 * words.length := by
  simp [keystreamBytes, length_serWord, Nat.mul_comm]

/-- R200: byte `i` of the serializations is byte `i % 4` of word `i / 4`. -/
theorem getElem?_keystreamBytes {words : List Word} {i : Nat} {z : Word} (hz : words[i / 4]? = some z) :
    (keystreamBytes words)[i]? = some (z.extractLsb' (24 - 8 * (i % 4)) 8) := by
  rw [keystreamBytes, getElem?_flatMap_of_length (by decide) length_serWord, hz]
  exact getElem?_serWord z (Nat.mod_lt i (by decide))

/-- R201: bit `i` of the serializations is bit `31 - i % 32` of word `i / 32`. -/
theorem getElem?_keystreamBytes_bits {words : List Word} {i : Nat} {z : Word} (hz : words[i / 32]? = some z) :
    ((keystreamBytes words).flatMap byteBits)[i]? = some (z.getLsbD (31 - i % 32)) := by
  have hword : words[i / 8 / 4]? = some z := by rwa [Nat.div_div_eq_div_mul]
  rw [getElem?_flatMap_of_length (by decide) length_byteBits, getElem?_keystreamBytes hword, Option.bind_some,
    getElem?_byteBits _ (Nat.mod_lt i (by decide)), BitVec.getLsbD_extractLsb']
  have hplace : 24 - 8 * (i / 8 % 4) + (7 - i % 8) = 31 - i % 32 := by omega
  have hbit : 7 - i % 8 < 8 := by omega
  simp [hplace, hbit]

/-- R200: `wordsForBytes` words serialize to enough bytes, and to fewer than one word more than enough. -/
theorem wordsForBytes_bounds (len : Nat) : len ≤ 4 * wordsForBytes len ∧ 4 * wordsForBytes len < len + 4 := by
  unfold wordsForBytes
  omega

/-- R201: `wordsForBits` words serialize to enough bits, and to fewer than one word more than enough. -/
theorem wordsForBits_bounds (bits : Nat) : bits ≤ 32 * wordsForBits bits ∧ 32 * wordsForBits bits < bits + 32 := by
  unfold wordsForBits
  omega

theorem length_xorBytes {data ks : List Byte} (h : data.length ≤ ks.length) : (xorBytes data ks).length = data.length := by
  simp [xorBytes, h]

/-- R202: XOR with the same bytes twice is the identity. -/
theorem xorBytes_xorBytes {data ks : List Byte} (h : data.length ≤ ks.length) : xorBytes (xorBytes data ks) ks = data := by
  apply List.ext_getElem
  · rw [length_xorBytes ((length_xorBytes h).le.trans h), length_xorBytes h]
  · intro i _ _
    simp [xorBytes]

/-- The keystream covers the data. -/
theorem length_le_keystreamBytes (key iv : Bytes16) (len : Nat) :
    len ≤ (keystreamBytes (keystream key iv (wordsForBytes len))).length := by
  rw [length_keystreamBytes, length_keystream]
  exact (wordsForBytes_bounds len).1

theorem length_xorKeystream (key iv : Bytes16) (data : List Byte) : (xorKeystream key iv data).length = data.length :=
  length_xorBytes (length_le_keystreamBytes key iv data.length)

theorem length_keystreamBits (key iv : Bytes16) (bits : Nat) : (keystreamBits key iv bits).length = bits := by
  have hcover := (wordsForBits_bounds bits).1
  simp [keystreamBits, length_byteBits]
  omega

/-- R203: parsing the serialization big-endian gives the word back. -/
theorem parseWord_serWord (z : Word) : parseWord (serWord z) = some z := congrArg some (append_bytes_eq z)

end Sys2Proof.Machine
end

section
/-! SUPPORT. XOR_KEYSTREAM's frames on idle ports: a LOAD with its 33 controller steps, then GENs in READY, each accepted and popped
before the next is sent (43_controller.md R154; 44_host_commands.md R182, R186). -/

namespace Sys2Proof.Machine

theorem cellsLegal_constructed (key iv : Bytes16) : cellsLegal (constructed key iv).cells = true :=
  cellsLegal_workRoundData (cellsLegal_initRoundsFrom (cellsLegal_keyCells key iv))

/-- R156: on idle ports a LOAD and its 33 controller steps reach READY. -/
theorem run_loadTurns {host : Nat} {key iv : Bytes16} {s : State} {rest : List Turn}
    (hp : s.phase = .uninit ∨ s.phase = .ready) (hidle : IdlePorts host s) (hs : s.sched = loadTurns host key iv ++ rest) :
    Sys2Proof.core.run (loadTurns host key iv).length s =
      .next (afterLoadSteps key iv 33 { s with owner := some host, sched := rest }) := by
  rw [loadTurns, List.append_assoc] at hs
  have hload := run_load_of_idle hp hidle hs
  have hrounds := run_afterLoadSteps (k := 33) (key := key) (iv := iv) (rest := rest)
    (s := keyLoad key iv { s with owner := some host, sched := List.replicate 33 .controller ++ rest })
    le_rfl rfl rfl (holdsDatapath_keyLoad key iv _) rfl
  rw [loadTurns, List.length_append, List.length_replicate]
  exact (run_add hload).trans hrounds

/-- The state once a GEN that stood alone on the command port is accepted, with a round on `d`, and its word popped. -/
def genPopped (d : Datapath) (s : State) : State :=
  writeDatapath (workRoundData d).next (some (workRoundData d).x)
    { s with port := [], delivered := s.delivered ++ [roundZ (workRoundData d)] }

theorem holdsDatapath_genPopped {d : Datapath} {s : State} (hd : HoldsDatapath d s) :
    HoldsDatapath (workRoundData d).next (genPopped d s) :=
  holdsDatapath_writeDatapath (cellsLegal_workRoundData hd.legal) _ _

theorem run_accept_gen_pop {d : Datapath} {s : State} {rest : List Turn} (hp : s.phase = .ready) (hd : HoldsDatapath d s)
    (hpend : s.pend = []) (hport : s.port = encode .gen) (hresp : s.resp = []) (hs : s.sched = .accept :: .pop :: rest) :
    Sys2Proof.core.run 2 s = .next (genPopped d { s with sched := rest }) := by
  have hframe : decode (s.pend ++ s.port) = .frame .gen [] := by rw [hpend, hport]; rfl
  have hroom : s.resp.length ≠ Config.respDepth := by simp [hresp, Config.respDepth]
  have hgen := execGen_of_holds (s := { s with sched := .pop :: rest }) hp hroom ⟨hd.cells, hd.r1, hd.r2, hd.legal⟩
  have haccept := (acceptTurn_of_frame (s := { s with sched := .pop :: rest }) hframe).trans hgen
  refine (run_succ_of_cons hs haccept).trans ((run_succ_of_cons rfl rfl).trans ?_)
  simp [Host.Core.run, genPopped, popTurn, writeDatapath, emit, retire, frameWords, hpend, hport, hresp, encode]

/-- R200: one GEN of XOR_KEYSTREAM, in READY with idle ports. -/
theorem run_genTurns {host : Nat} {d : Datapath} {s : State} {rest : List Turn} (hp : s.phase = .ready)
    (hd : HoldsDatapath d s) (hidle : IdlePorts host s) (hs : s.sched = genTurns host ++ rest) :
    Sys2Proof.core.run (genTurns host).length s = .next (genPopped d { s with owner := some host, sched := rest }) := by
  obtain ⟨hpend, hport, hresp, howner⟩ := hidle
  have hsends := run_sends (ws := encode .gen) (rest := .accept :: .pop :: rest) howner (encode_ne_nil .gen) hs
  rw [hport] at hsends
  exact (run_add (k := 2) hsends).trans (run_accept_gen_pop
    (s := { s with port := encode .gen, owner := some host, sched := .accept :: .pop :: rest })
    hp ⟨hd.cells, hd.r1, hd.r2, hd.legal⟩ hpend rfl hresp rfl)

/-- R200: `n` GENs of XOR_KEYSTREAM deliver the next `n` keystream words, and leave the ports idle again. -/
theorem run_gensTurns {host n : Nat} {d : Datapath} {s : State} {rest : List Turn} (hp : s.phase = .ready)
    (hd : HoldsDatapath d s) (hidle : IdlePorts host s) (hs : s.sched = gensTurns host n ++ rest) :
    ∃ t, Sys2Proof.core.run (gensTurns host n).length s = .next t ∧ t.delivered = s.delivered ++ keystreamFrom n d ∧
      SameControl s t ∧ HoldsDatapath (genRoundsFrom n d) t ∧ IdlePorts host t ∧ t.sched = rest := by
  induction n generalizing d s with
  | zero => exact ⟨s, rfl, (List.append_nil _).symm, .refl s, hd, hidle, hs⟩
  | succ n ih =>
    rw [gensTurns, List.append_assoc] at hs
    have hgen := run_genTurns hp hd hidle hs
    obtain ⟨hpend, -, hresp, -⟩ := hidle
    obtain ⟨t, ht, hdelivered, hcontrol, hdt, hidlet, hsched⟩ :=
      ih (s := genPopped d { s with owner := some host, sched := gensTurns host n ++ rest }) hp
        (holdsDatapath_genPopped ⟨hd.cells, hd.r1, hd.r2, hd.legal⟩) ⟨hpend, rfl, hresp, .inr rfl⟩ rfl
    refine ⟨t, ?_, hdelivered.trans (List.append_assoc _ _ _), hcontrol, hdt, hidlet, hsched⟩
    rw [gensTurns, List.length_append]
    exact (run_add hgen).trans ht

end Sys2Proof.Machine
end

section
/-! SUPPORT. Runs under moves that are the schedule's choice: a property that every acceptance, controller step and pop keeps
holds after any row of them (20_memory.md R60; log entries 3, 25). -/

namespace Sys2Proof.Machine

/-- Two states agree on the agents' side: the moves planned and the port's owner. -/
def SameAgents (s t : State) : Prop := t.sched = s.sched ∧ t.owner = s.owner

theorem exec_sameAgents {i : Instr} {s t : State} (h : exec i s = .next t) : SameAgents s t := by
  cases i with
  | load key iv => obtain ⟨-, rfl⟩ | ⟨-, rfl⟩ | ⟨-, rfl⟩ := execLoad_next h <;> exact ⟨rfl, rfl⟩
  | gen => obtain ⟨-, -, d, -, -, -, -, rfl⟩ | ⟨-, rfl⟩ | ⟨-, rfl⟩ | ⟨-, rfl⟩ := execGen_next h <;> exact ⟨rfl, rfl⟩
  | status => obtain ⟨-, rfl⟩ | ⟨-, rfl⟩ := execStatus_next h <;> exact ⟨rfl, rfl⟩

theorem acceptTurn_sameAgents {s t : State} (h : acceptTurn s = .next t) : SameAgents s t := by
  obtain ⟨i, rest, -, he⟩ | ⟨w, rest, -, hi⟩ | ⟨-, rfl⟩ | ⟨-, rfl⟩ := acceptTurn_next h
  · exact exec_sameAgents he
  · obtain ⟨-, rfl⟩ | ⟨-, rfl⟩ := illegalHeader_next hi <;> exact ⟨rfl, rfl⟩
  · exact ⟨rfl, rfl⟩
  · exact ⟨rfl, rfl⟩

theorem controllerStep_sameAgents {s t : State} (h : controllerStep s = .next t) : SameAgents s t := by
  obtain ⟨-, rfl⟩ | ⟨-, d, -, -, -, -, ⟨-, rfl⟩ | ⟨-, rfl⟩⟩ := controllerStep_next h <;> exact ⟨rfl, rfl⟩

/-- From every state with the property each of the moves that are no input answers a next state, which has it too. -/
structure KeptByMoves (I : State → Prop) : Prop where
  sched : ∀ {s} (moves : List Turn), I s → I { s with sched := moves }
  accept : ∀ {s}, I s → ∃ t, acceptTurn s = .next t ∧ I t
  controller : ∀ {s}, I s → ∃ t, controllerStep s = .next t ∧ I t
  pop : ∀ {s}, I s → I (popTurn s)

theorem KeptByMoves.exists_takeTurn {I : State → Prop} (hI : KeptByMoves I) {turn : Turn} {s : State} (hm : noInput [turn] = true)
    (hs : I s) : ∃ t, takeTurn turn s = .next t ∧ I t ∧ SameAgents s t := by
  cases turn with
  | send host w => simp [noInput] at hm
  | accept =>
    obtain ⟨t, ht, hIt⟩ := hI.accept hs
    exact ⟨t, ht, hIt, acceptTurn_sameAgents ht⟩
  | controller =>
    obtain ⟨t, ht, hIt⟩ := hI.controller hs
    exact ⟨t, ht, hIt, controllerStep_sameAgents ht⟩
  | pop => exact ⟨popTurn s, rfl, hI.pop hs, popTurn_sched s, popTurn_owner s⟩
  | reset => simp [noInput] at hm

theorem noInput_cons (turn : Turn) (moves : List Turn) :
    noInput (turn :: moves) = true ↔ noInput [turn] = true ∧ noInput moves = true := by
  simp [noInput]

theorem KeptByMoves.exists_run {I : State → Prop} (hI : KeptByMoves I) {moves : List Turn} {s : State} (hm : noInput moves = true)
    (h : I s) (hs : s.sched = moves) :
    ∃ t, Sys2Proof.core.run moves.length s = .next t ∧ I t ∧ t.owner = s.owner := by
  induction moves generalizing s with
  | nil => exact ⟨s, rfl, h, rfl⟩
  | cons turn moves ih =>
    obtain ⟨hturn, hmoves⟩ := (noInput_cons turn moves).mp hm
    obtain ⟨u, hu, hIu, hsched, howner⟩ := hI.exists_takeTurn hturn (hI.sched moves h)
    obtain ⟨t, ht, hIt, hownert⟩ := ih hmoves hIu hsched
    exact ⟨t, (run_succ_of_cons hs hu).trans ht, hIt, hownert.trans howner⟩

/-- A command issued with moves that are no input: they are a run from the state with its frame sent. -/
theorem KeptByMoves.exists_issue {I : State → Prop} (hI : KeptByMoves I) {host : Nat} {i : Instr} {moves : List Turn} {s : State}
    (hm : noInput moves = true) (howner : s.owner = none ∨ s.owner = some host)
    (h : I { s with port := s.port ++ encode i, owner := some host }) :
    ∃ t, issue host i moves s = .next t ∧ I t ∧ t.owner = some host := by
  rw [issue_eq howner]
  exact hI.exists_run hm (hI.sched moves h) rfl

end Sys2Proof.Machine
end

section
/-! SUPPORT. The command stream as a row of whole frames (20_memory.md R59; 30_encoding.md R71). -/

namespace Sys2Proof.Machine

/-- The words before CORE are exactly these frames. -/
def Queued (frames : List Instr) (s : State) : Prop := frameWords s = frames.flatMap encode

/-- A state on whose ports no command word waits has no frame queued. -/
theorem queued_nil_iff (s : State) : Queued [] s ↔ s.pend = [] ∧ s.port = [] := List.append_eq_nil_iff

theorem eq_nil_of_queued {frames : List Instr} {s : State} (h : Queued frames s) (hnil : Queued [] s) : frames = [] := by
  cases frames with
  | nil => rfl
  | cons i frames =>
    have hwords : (i :: frames).flatMap encode = [] := h.symm.trans hnil
    simp [encode_ne_nil] at hwords

/-- A frame that is sent joins the end of the row. -/
theorem Queued.send {frames : List Instr} {s : State} (h : Queued frames s) (i : Instr) (host : Nat) :
    Queued (frames ++ [i]) { s with port := s.port ++ encode i, owner := some host } := by
  have hwords : s.pend ++ s.port = frames.flatMap encode := h
  simp [Queued, frameWords, ← hwords]

theorem Queued.popTurn {frames : List Instr} {s : State} (h : Queued frames s) : Queued frames (popTurn s) :=
  (frameWords_popTurn s).trans h

/-- A frame that is taken leaves the others. -/
theorem Queued.retire {i : Instr} {frames : List Instr} {s : State} (h : Queued (i :: frames) s) :
    Queued frames (retire (encode i).length s) := by
  have hwords : s.pend ++ s.port = encode i ++ frames.flatMap encode := h
  simp [Queued, frameWords, hwords]

theorem acceptTurn_of_queued_nil {s : State} (h : Queued [] s) : acceptTurn s = .next s := by
  have hwords : frameWords s = [] := h
  simp [acceptTurn, hwords, decode]

theorem acceptTurn_of_queued_cons {i : Instr} {frames : List Instr} {s : State} (h : Queued (i :: frames) s) :
    acceptTurn s = exec i s := by
  have hwords : s.pend ++ s.port = encode i ++ frames.flatMap encode := h
  exact acceptTurn_of_frame (hwords ▸ decode_encode_append i _)

end Sys2Proof.Machine
end

section
/-! SUPPORT. The generator in a session of one LOAD and its GENs: what its registers hold in each phase
(43_controller.md R155, R157). -/

namespace Sys2Proof.Machine

/-- `k` controller steps after a LOAD of `key` and `iv`, counted on in READY where they change nothing, and `j` GEN rounds after
those, which there are only from READY on. -/
inductive Generating (key iv : Bytes16) (k j : Nat) (s : State) : Prop where
  | rounds (hk : k < 33) (hj : j = 0) (phase : s.phase = .init) (round : s.round.toNat = k)
      (holds : HoldsDatapath (afterLoadRounds k key iv) s)
  | ready (hk : 33 ≤ k) (phase : s.phase = .ready) (holds : HoldsDatapath (genRoundsFrom j (constructed key iv)) s)

theorem generating_keyLoad (key iv : Bytes16) (s : State) : Generating key iv 0 0 (keyLoad key iv s) :=
  .rounds (by decide) rfl rfl rfl (holdsDatapath_keyLoad key iv s)

theorem Generating.of_sameGenerator {key iv : Bytes16} {k j : Nat} {s s' : State} (h : Generating key iv k j s)
    (hsame : SameGenerator s s') : Generating key iv k j s' := by
  obtain ⟨hphase, hround, -⟩ := id hsame
  cases h with
  | rounds hk hj hp hr hd => exact .rounds hk hj (hphase ▸ hp) (hround ▸ hr) (.of_sameGenerator hsame hd)
  | ready hk hp hd => exact .ready hk (hphase ▸ hp) (.of_sameGenerator hsame hd)

/-- R155: the controller's step always answers, is one step further, and leaves the ports alone. -/
theorem Generating.exists_controllerStep {key iv : Bytes16} {k j : Nat} {s : State} (h : Generating key iv k j s) :
    ∃ t, controllerStep s = .next t ∧ Generating key iv (k + 1) j t ∧ SamePorts s t := by
  cases h with
  | rounds hk hj hp hr hd =>
    refine ⟨_, controllerStep_eq_afterLoadSteps hk hp hr hd, ?_, rfl, rfl, rfl, rfl, rfl⟩
    by_cases h32 : k < 32
    · have hlegal : cellsLegal (afterLoadRounds (k + 1) key iv).cells = true := by
        rw [afterLoadRounds_succ h32]
        exact cellsLegal_initRoundData hd.legal
      exact .rounds (by omega) hj (if_pos h32) (afterLoadSteps_round_toNat hk key iv s)
        (holdsDatapath_writeDatapath hlegal _ _)
    · obtain rfl : k = 32 := by omega
      subst hj
      exact .ready le_rfl rfl (holdsDatapath_writeDatapath (cellsLegal_constructed key iv) _ _)
  | ready hk hp hd =>
    exact ⟨s, controllerStep_of_not_init (by simp [hp]), .ready (by omega) hp hd, .refl s⟩

/-- R155: `n` controller steps in a row. -/
theorem Generating.exists_run_controllers {key iv : Bytes16} {k j n : Nat} {s : State} {rest : List Turn}
    (h : Generating key iv k j s) (hs : s.sched = List.replicate n .controller ++ rest) :
    ∃ t, Sys2Proof.core.run n s = .next t ∧ Generating key iv (k + n) j t ∧ SamePorts s t ∧ t.sched = rest := by
  induction n generalizing k s with
  | zero => exact ⟨s, rfl, h, .refl s, hs⟩
  | succ n ih =>
    rw [List.replicate_succ, List.cons_append] at hs
    have h' : Generating key iv k j { s with sched := List.replicate n .controller ++ rest } :=
      h.of_sameGenerator ⟨rfl, rfl, rfl, rfl, rfl⟩
    obtain ⟨u, hu, hgen, hports⟩ := h'.exists_controllerStep
    obtain ⟨t, ht, hgent, hportst, hrest⟩ := ih hgen (controllerStep_sameAgents hu).1
    refine ⟨t, (run_succ_of_cons hs hu).trans ht, ?_, hports.trans hportst, hrest⟩
    rwa [Nat.add_right_comm, Nat.add_assoc] at hgent

end Sys2Proof.Machine
end

section
/-! SUPPORT. XOR_KEYSTREAM under every interleaving: what holds after any moves, until a GEN's word is popped
(45_keystream_consumer.md R200; 43_controller.md R157; log entry 25). -/

namespace Sys2Proof.Machine

/-- The words that came out of the response FIFO and those still in it. -/
def outWords (s : State) : List Word := s.delivered ++ s.resp

/-- A session in which one LOAD was sent, when `old` were the words out, and then `g` GENs: `j` of them have emitted the first `j`
keystream words, and the others wait, behind the LOAD until it is performed. -/
def Session (key iv : Bytes16) (old : List Word) (g : Nat) (s : State) : Prop :=
  ∃ j r, j + r = g ∧ outWords s = old ++ keystream key iv j ∧
    ((j = 0 ∧ (s.phase = .uninit ∨ s.phase = .ready) ∧ Queued (.load key iv :: List.replicate r .gen) s) ∨
      (∃ k, Generating key iv k j s) ∧ Queued (List.replicate r .gen) s)

theorem Session.accept {key iv : Bytes16} {old : List Word} {g : Nat} {s : State} (h : Session key iv old g s) :
    ∃ t, acceptTurn s = .next t ∧ Session key iv old g t := by
  obtain ⟨j, r, hg, hout, ⟨hj, hp, hq⟩ | ⟨⟨k, hgen⟩, hq⟩⟩ := id h
  · refine ⟨_, (acceptTurn_of_queued_cons hq).trans (execLoad_of_uninit_or_ready key iv hp), ?_⟩
    subst hj
    exact ⟨0, r, hg, hout, .inr ⟨⟨0, generating_keyLoad key iv _⟩, hq.retire⟩⟩
  · cases r with
    | zero => exact ⟨s, acceptTurn_of_queued_nil hq, h⟩
    | succ r =>
      rw [acceptTurn_of_queued_cons hq]
      cases hgen with
      | rounds hk hj hp hr hd => exact ⟨s, execGen_of_init hp, h⟩
      | ready hk hp hd =>
        by_cases hfull : s.resp.length = Config.respDepth
        · exact ⟨s, execGen_of_ready_full hp hfull, h⟩
        · refine ⟨_, execGen_of_holds hp hfull hd, j + 1, r, by omega, ?_, .inr ⟨⟨k, .ready hk hp ?_⟩, hq.retire⟩⟩
          · have hwords : s.delivered ++ s.resp = old ++ keystream key iv j := hout
            simp [outWords, ← List.append_assoc, hwords, keystream, keystreamFrom_succ]
          · rw [genRoundsFrom_succ]
            exact ⟨rfl, rfl, rfl, cellsLegal_workRoundData hd.legal⟩

theorem Session.controller {key iv : Bytes16} {old : List Word} {g : Nat} {s : State} (h : Session key iv old g s) :
    ∃ t, controllerStep s = .next t ∧ Session key iv old g t := by
  obtain ⟨j, r, hg, hout, ⟨hj, hp, hq⟩ | ⟨⟨k, hgen⟩, hq⟩⟩ := id h
  · exact ⟨s, controllerStep_of_not_init (by rcases hp with hp | hp <;> simp [hp]), h⟩
  · obtain ⟨t, ht, hgent, -, -, hresp, hdelivered, -⟩ := hgen.exists_controllerStep
    have houtt : outWords t = outWords s := by rw [outWords, hresp, hdelivered, outWords]
    exact ⟨t, ht, j, r, hg, houtt.trans hout, .inr ⟨⟨k + 1, hgent⟩, (controllerStep_frameWords ht).trans hq⟩⟩

theorem Session.pop {key iv : Bytes16} {old : List Word} {g : Nat} {s : State} (h : Session key iv old g s) :
    Session key iv old g (popTurn s) := by
  obtain ⟨j, r, hg, hout, hcase⟩ := h
  refine ⟨j, r, hg, (popTurn_words s).trans hout, ?_⟩
  obtain ⟨hj, hp, hq⟩ | ⟨⟨k, hgen⟩, hq⟩ := hcase
  · exact .inl ⟨hj, by rwa [popTurn_phase], hq.popTurn⟩
  · exact .inr ⟨⟨k, hgen.of_sameGenerator (sameCore_popTurn s).1⟩, hq.popTurn⟩

theorem keptByMoves_session (key iv : Bytes16) (old : List Word) (g : Nat) : KeptByMoves (Session key iv old g) where
  sched := by
    rintro s moves ⟨j, r, hg, hout, hload | ⟨⟨k, hgen⟩, hq⟩⟩
    · exact ⟨j, r, hg, hout, .inl hload⟩
    · exact ⟨j, r, hg, hout, .inr ⟨⟨k, hgen.of_sameGenerator ⟨rfl, rfl, rfl, rfl, rfl⟩⟩, hq⟩⟩
  accept := Session.accept
  controller := Session.controller
  pop := Session.pop

/-- On idle ports, in UNINIT and READY, a LOAD's frame opens a session. -/
theorem session_of_load_sent {host : Nat} {s : State} (key iv : Bytes16) (hp : s.phase = .uninit ∨ s.phase = .ready)
    (hidle : IdlePorts host s) :
    Session key iv (outWords s) 0 { s with port := s.port ++ encode (.load key iv), owner := some host } := by
  obtain ⟨hpend, hport, -, -⟩ := hidle
  exact ⟨0, 0, rfl, (List.append_nil _).symm,
    .inl ⟨rfl, hp, ((queued_nil_iff s).mpr ⟨hpend, hport⟩).send (.load key iv) host⟩⟩

/-- A GEN's frame is one more. -/
theorem Session.gen_sent {key iv : Bytes16} {old : List Word} {g : Nat} {s : State} (h : Session key iv old g s) (host : Nat) :
    Session key iv old (g + 1) { s with port := s.port ++ encode .gen, owner := some host } := by
  obtain ⟨j, r, hg, hout, hcase⟩ := h
  refine ⟨j, r + 1, by omega, hout, ?_⟩
  rw [List.replicate_succ']
  obtain ⟨hj, hp, hq⟩ | ⟨⟨k, hgen⟩, hq⟩ := hcase
  · exact .inl ⟨hj, hp, hq.send .gen host⟩
  · exact .inr ⟨⟨k, hgen.of_sameGenerator ⟨rfl, rfl, rfl, rfl, rfl⟩⟩, hq.send .gen host⟩

/-- Where the host reads an answer, it is the last word that came out since it issued the command, and no frame waits. -/
theorem answer_eq_some {moves : List Turn} {s t : State} {z : Word} (h : answer moves s t = some z) :
    noInput moves = true ∧ Queued [] t ∧ ((outWords t).drop (outWords s).length).getLast? = some z := by
  unfold answer at h
  split at h
  · next hidle =>
    obtain ⟨hm, hport, hpend, hresp⟩ := hidle
    refine ⟨hm, (queued_nil_iff t).mpr ⟨hpend, hport⟩, ?_⟩
    simpa [outWords, hresp] using h
  · cases h

/-- Where no frame waits, every GEN sent has emitted its word. -/
theorem Session.outWords_of_queued_nil {key iv : Bytes16} {old : List Word} {g : Nat} {s : State}
    (h : Session key iv old g s) (hnil : Queued [] s) : outWords s = old ++ keystream key iv g := by
  obtain ⟨j, r, rfl, hout, ⟨-, -, hq⟩ | ⟨-, hq⟩⟩ := h
  · simpa using eq_nil_of_queued hq hnil
  · obtain rfl : r = 0 := by simpa using eq_nil_of_queued hq hnil
    exact hout

/-- Before the first GEN is sent no word comes out. -/
theorem Session.outWords_of_zero {key iv : Bytes16} {old : List Word} {s : State} (h : Session key iv old 0 s) :
    outWords s = old := by
  obtain ⟨j, r, hg, hout, -⟩ := h
  obtain rfl : j = 0 := by omega
  exact hout.trans (List.append_nil old)

/-- A completed loop popped a word for its first GEN, and went on. -/
theorem genWords_completed {host n : Nat} {moves : Nat → List Turn} {s : State}
    (h : (genWords host (n + 1) moves s).ending = .completed) :
    ∃ t z, issue host .gen (moves 0) s = .next t ∧ answer (moves 0) s t = some z ∧
      (genWords host n (fun i => moves (i + 1)) t).ending = .completed ∧
      (genWords host (n + 1) moves s).words = z :: (genWords host n (fun i => moves (i + 1)) t).words := by
  cases hissue : issue host .gen (moves 0) s with
  | next t =>
    cases hanswer : answer (moves 0) s t with
    | none => simp [genWords_unanswered hissue hanswer] at h
    | some z =>
      rw [genWords_popped hissue hanswer] at h ⊢
      exact ⟨t, z, rfl, hanswer, h, rfl⟩
  | fault r => simp [genWords, hissue] at h
  | refused r => simp [genWords, hissue] at h

/-- R200, R157: whatever moves are made, the words of a completed loop are the next keystream words. -/
theorem Session.words_of_completed {host n g : Nat} {key iv : Bytes16} {old : List Word} {moves : Nat → List Turn} {s : State}
    (h : Session key iv old g s) (hout : outWords s = old ++ keystream key iv g) (howner : s.owner = some host)
    (hend : (genWords host n moves s).ending = .completed) :
    (genWords host n moves s).words = keystreamFrom n (genRoundsFrom g (constructed key iv)) := by
  induction n generalizing g moves s with
  | zero => rfl
  | succ n ih =>
    obtain ⟨t, z, hissue, hanswer, hendt, hwords⟩ := genWords_completed hend
    obtain ⟨hm, hnil, hlast⟩ := answer_eq_some hanswer
    obtain ⟨t', hissue', hsession, hownert⟩ :=
      (keptByMoves_session key iv old (g + 1)).exists_issue hm (.inr howner) (h.gen_sent host)
    obtain rfl : t = t' := by simpa [hissue] using hissue'
    have houtt := hsession.outWords_of_queued_nil hnil
    have hz : z = roundZ (workRoundData (genRoundsFrom g (constructed key iv))) := by
      rw [houtt, keystream, keystreamFrom_succ, ← List.append_assoc, ← keystream, ← hout, List.drop_left] at hlast
      exact (Option.some.inj hlast).symm
    rw [hwords, ih hsession houtt hownert hendt, hz, genRoundsFrom_succ]
    rfl

end Sys2Proof.Machine
end

section
/-! SUPPORT. XOR_KEYSTREAM completes when the controller runs (45_keystream_consumer.md R200; 43_controller.md R155, R156). -/

namespace Sys2Proof.Machine

/-- A LOAD issued on idle ports, in UNINIT and READY, accepted at once, and `n` controller steps. -/
theorem issue_load_controllers {host n : Nat} {key iv : Bytes16} {s : State} (hp : s.phase = .uninit ∨ s.phase = .ready)
    (hidle : IdlePorts host s) :
    ∃ t, issue host (.load key iv) (.accept :: List.replicate n .controller) s = .next t ∧ Generating key iv n 0 t ∧
      IdlePorts host t := by
  have hlen : (issueTurns host (.load key iv) (.accept :: List.replicate n .controller)).length =
      (frameTurns host (.load key iv)).length + n := by
    simp [issueTurns, frameTurns, Nat.add_assoc, Nat.add_comm]
  have hload := run_load_of_idle (key := key) (iv := iv) (rest := List.replicate n .controller)
    (s := { s with sched := issueTurns host (.load key iv) (.accept :: List.replicate n .controller) }) hp hidle
    (by simp [issueTurns, frameTurns])
  obtain ⟨hpend, hport, hresp, -⟩ := hidle
  obtain ⟨t, ht, hgen, ⟨hpendt, hportt, hrespt, -, hownert⟩, -⟩ :=
    (generating_keyLoad key iv { s with owner := some host, sched := List.replicate n .controller }).exists_run_controllers
      (rest := []) (List.append_nil _).symm
  refine ⟨t, ?_, by rwa [Nat.zero_add] at hgen, hpendt.trans hpend, hportt.trans hport, hrespt.trans hresp, .inr hownert⟩
  rw [issue, hlen]
  exact (run_add hload).trans ht

/-- A GEN issued on idle ports, with enough controller steps before its acceptance to be in READY: its word is popped. -/
theorem issue_gen_poll {host n k j : Nat} {key iv : Bytes16} {s : State} (h : Generating key iv k j s)
    (hidle : IdlePorts host s) (hk : 33 ≤ k + n) :
    ∃ t z, issue host .gen (pollMoves n) s = .next t ∧ answer (pollMoves n) s t = some z ∧
      Generating key iv (k + n) (j + 1) t ∧ IdlePorts host t := by
  obtain ⟨hpend, hport, hresp, howner⟩ := hidle
  have hsent : Generating key iv k j { s with port := encode .gen, owner := some host, sched := pollMoves n } :=
    h.of_sameGenerator ⟨rfl, rfl, rfl, rfl, rfl⟩
  obtain ⟨u, hu, hgen, ⟨hupend, huport, huresp, hudelivered, huowner⟩, husched⟩ :=
    hsent.exists_run_controllers (n := n) (rest := [.accept, .pop]) rfl
  cases hgen with
  | rounds hlt => omega
  | ready _ hp hd =>
    have hpend' : u.pend = [] := hupend.trans hpend
    have hresp' : u.resp = [] := huresp.trans hresp
    have hpopped := run_accept_gen_pop hp hd hpend' huport hresp' husched
    have hlen : (pollMoves n).length = n + 2 := by simp [pollMoves]
    have hholds := holdsDatapath_genPopped (s := { u with sched := [] }) ⟨hd.cells, hd.r1, hd.r2, hd.legal⟩
    rw [issue_eq howner, hport, hlen]
    refine ⟨_, _, (run_add (M := Sys2Proof.core) hu).trans hpopped,
      answer_of_delivered (noInput_pollMoves n) rfl hpend' hresp' hresp (congrArg (· ++ _) hudelivered),
      .ready hk hp ?_, hpend', rfl, hresp', .inr huowner⟩
    rwa [genRoundsFrom_succ]

/-- Once READY is reached before the first GEN's acceptance, the loop completes. -/
theorem genWords_completes {host n k j : Nat} {key iv : Bytes16} {m : Nat → Nat} {s : State} (h : Generating key iv k j s)
    (hidle : IdlePorts host s) (hk : 33 ≤ k + m 0) :
    (genWords host n (fun i => pollMoves (m i)) s).ending = .completed := by
  induction n generalizing k j m s with
  | zero => rfl
  | succ n ih =>
    obtain ⟨t, z, hissue, hanswer, hgen, hidlet⟩ := issue_gen_poll h hidle hk
    rw [genWords_popped (moves := fun i => pollMoves (m i)) hissue hanswer]
    exact ih (m := fun i => m (i + 1)) hgen hidlet (Nat.le_add_right_of_le hk)

end Sys2Proof.Machine
end

section
/-! SUPPORT. In FAULT every LOAD and GEN is discarded, and neither is answered (60_exceptions.md R213). -/

namespace Sys2Proof.Machine

/-- In FAULT, with frames that are no STATUS: they are discarded, and no word comes out (R213). -/
def Discarding (out : List Word) (s : State) : Prop :=
  s.phase = .fault ∧ outWords s = out ∧ ∃ frames, Instr.status ∉ frames ∧ Queued frames s

theorem exec_of_fault {i : Instr} {s : State} (hi : i ≠ .status) (hp : s.phase = .fault) :
    exec i s = .next (retire (encode i).length s) := by
  cases i with
  | load key iv => exact execLoad_of_fault key iv hp
  | gen => exact execGen_of_fault hp
  | status => contradiction

theorem keptByMoves_discarding (out : List Word) : KeptByMoves (Discarding out) where
  sched := fun _ h => h
  accept := by
    rintro s ⟨hp, hout, frames, hstatus, hq⟩
    cases frames with
    | nil => exact ⟨s, acceptTurn_of_queued_nil hq, hp, hout, [], hstatus, hq⟩
    | cons i frames =>
      obtain ⟨hi, hframes⟩ := not_or.mp (mt List.mem_cons.mpr hstatus)
      exact ⟨_, (acceptTurn_of_queued_cons hq).trans (exec_of_fault (Ne.symm hi) hp), hp, hout, frames, hframes, hq.retire⟩
  controller := fun {s} h => ⟨s, controllerStep_of_not_init (by simp [h.1]), h⟩
  pop := by
    rintro s ⟨hp, hout, frames, hstatus, hq⟩
    exact ⟨(popTurn_phase s).trans hp, (popTurn_words s).trans hout, frames, hstatus, hq.popTurn⟩

/-- A LOAD or a GEN that is sent is discarded too. -/
theorem Discarding.send {out : List Word} {s : State} (h : Discarding out s) {i : Instr} (hi : i ≠ .status) (host : Nat) :
    Discarding out { s with port := s.port ++ encode i, owner := some host } := by
  obtain ⟨hp, hout, frames, hstatus, hq⟩ := h
  exact ⟨hp, hout, frames ++ [i], by simp [hstatus, hi.symm], hq.send i host⟩

/-- Where no word came out there is no answer. -/
theorem answer_eq_none_of_outWords_eq {moves : List Turn} {s t : State} (h : outWords t = outWords s) :
    answer moves s t = none := by
  cases hanswer : answer moves s t with
  | none => rfl
  | some z => simpa [h] using (answer_eq_some hanswer).2.2

end Sys2Proof.Machine
end

section
/-! SUPPORT. XOR_KEYSTREAM on the machine, from UNINIT or READY and from FAULT
(45_keystream_consumer.md R200; 43_controller.md R157; 60_exceptions.md R213). -/

namespace Sys2Proof.Machine

theorem popKeystream_of_load {host len : Nat} {key iv : Bytes16} {loadMoves : List Turn} {moves : Nat → List Turn}
    {s t : State} (h : issue host (.load key iv) loadMoves s = .next t) :
    popKeystream host key iv len loadMoves moves s = genWords host (wordsForBytes len) moves t := by
  simp [popKeystream, h]

theorem runXorKeystream_eq_some_iff {host : Nat} {key iv : Bytes16} {data result : List Byte} {loadMoves : List Turn}
    {moves : Nat → List Turn} {s : State} : runXorKeystream host key iv data loadMoves moves s = some result ↔
      (popKeystream host key iv data.length loadMoves moves s).ending = .completed ∧
        xorBytes data (keystreamBytes (popKeystream host key iv data.length loadMoves moves s).words) = result := by
  simp only [runXorKeystream]
  split <;> next hend => simp [hend]

theorem runXorKeystream_of_unanswered {host : Nat} {key iv : Bytes16} {data : List Byte} {loadMoves : List Turn}
    {moves : Nat → List Turn} {s : State}
    (h : (popKeystream host key iv data.length loadMoves moves s).ending = .unanswered) :
    runXorKeystream host key iv data loadMoves moves s = none := by
  simp [runXorKeystream, h]

/-- R200, R157: a completed procedure gives the XOR with the keystream. -/
theorem runXorKeystream_correct {host : Nat} {key iv : Bytes16} {data result : List Byte} {loadMoves : List Turn}
    {moves : Nat → List Turn} {s : State} (hp : s.phase = .uninit ∨ s.phase = .ready) (hidle : IdlePorts host s)
    (hm : noInput loadMoves = true) (h : runXorKeystream host key iv data loadMoves moves s = some result) :
    result = xorKeystream key iv data := by
  obtain ⟨t, hissue, hsession, howner⟩ :=
    (keptByMoves_session key iv (outWords s) 0).exists_issue hm hidle.2.2.2 (session_of_load_sent key iv hp hidle)
  obtain ⟨hend, rfl⟩ := runXorKeystream_eq_some_iff.mp h
  rw [popKeystream_of_load hissue] at hend ⊢
  have hout : outWords t = outWords s ++ keystream key iv 0 := hsession.outWords_of_zero.trans (List.append_nil _).symm
  rw [hsession.words_of_completed hout howner hend]
  rfl

/-- R200, R156: with enough controller steps the procedure completes, with the XOR with the keystream. -/
theorem runXorKeystream_completes {host n : Nat} {key iv : Bytes16} {data : List Byte} {m : Nat → Nat} {s : State}
    (hp : s.phase = .uninit ∨ s.phase = .ready) (hidle : IdlePorts host s) (hn : 33 ≤ n + m 0) :
    runXorKeystream host key iv data (.accept :: List.replicate n .controller) (fun j => pollMoves (m j)) s =
      some (xorKeystream key iv data) := by
  obtain ⟨t, hissue, hgen, hidlet⟩ := issue_load_controllers (n := n) hp hidle
  have hend := genWords_completes (n := wordsForBytes data.length) hgen hidlet hn
  rw [← popKeystream_of_load (moves := fun j => pollMoves (m j)) hissue] at hend
  have hresult := runXorKeystream_eq_some_iff.mpr ⟨hend, rfl⟩
  have hm : noInput (.accept :: List.replicate n .controller) = true := by simp [noInput]
  rw [hresult, runXorKeystream_correct hp hidle hm hresult]

/-- R200, R213: from FAULT the first GEN of a procedure over some data is never answered. -/
theorem popKeystream_of_fault {host : Nat} {key iv : Bytes16} {data : List Byte} {loadMoves : List Turn}
    {moves : Nat → List Turn} {s : State} (hp : s.phase = .fault) (hidle : IdlePorts host s) (hload : noInput loadMoves = true)
    (hgen : noInput (moves 0) = true) (hdata : data ≠ []) :
    (popKeystream host key iv data.length loadMoves moves s).ending = .unanswered := by
  obtain ⟨hpend, hport, -, howner⟩ := hidle
  have hdiscarding : Discarding (outWords s) s := ⟨hp, rfl, [], by simp, (queued_nil_iff s).mpr ⟨hpend, hport⟩⟩
  have hkept := keptByMoves_discarding (outWords s)
  obtain ⟨t, hissue, hdiscardt, hownert⟩ := hkept.exists_issue (i := .load key iv) hload howner (hdiscarding.send (by simp) host)
  obtain ⟨u, hissue', ⟨-, hout, -⟩, -⟩ := hkept.exists_issue (i := .gen) hgen (.inr hownert) (hdiscardt.send (by simp) host)
  have hnone := answer_eq_none_of_outWords_eq (moves := moves 0) (hout.trans hdiscardt.2.1.symm)
  have hpos : 0 < wordsForBytes data.length := by
    have hlen := List.length_pos_iff.mpr hdata
    have hcover := (wordsForBytes_bounds data.length).1
    omega
  obtain ⟨n, hn⟩ := Nat.exists_eq_succ_of_ne_zero hpos.ne'
  rw [popKeystream_of_load hissue, hn, genWords_unanswered hissue' hnone]

end Sys2Proof.Machine
end

section
/-! The settled statements of 45_keystream_consumer.md: XOR_KEYSTREAM and bit requests as functions of the keystream, and
XOR_KEYSTREAM on the machine. -/

namespace Sys2Proof.Machine

/-- Settles O45: the result is as long as the data, so the second XOR is with the same bytes. -/
theorem xorKeystreamIsInvolution : Obligations.XorKeystreamIsInvolution := by
  intro key iv data
  rw [xorKeystream, length_xorKeystream]
  exact xorBytes_xorBytes (length_le_keystreamBytes key iv data.length)

/-- Settles O46, from the two ceilings' bounds. -/
theorem keystreamLengths : Obligations.KeystreamLengths :=
  ⟨wordsForBytes_bounds, wordsForBits_bounds, length_keystream, length_xorKeystream, length_keystreamBits⟩

/-- Settles O47: the run is cut after the 33 controller steps of the LOAD, and then after each GEN. -/
theorem xorKeystreamRunDeliversKeystream : Obligations.XorKeystreamRunDeliversKeystream := by
  intro s host key iv len rest hp hpend hport hresp howner hs
  rw [xorTurns, List.append_assoc] at hs
  have hload := run_loadTurns hp ⟨hpend, hport, hresp, howner⟩ hs
  obtain ⟨t, ht, hdelivered, ⟨hphase, hround, hcause⟩, hd, ⟨hpendt, hportt, hrespt, -⟩, hsched⟩ :=
    run_gensTurns (host := host) (n := wordsForBytes len) (rest := rest)
      (s := afterLoadSteps key iv 33 { s with owner := some host, sched := gensTurns host (wordsForBytes len) ++ rest })
      rfl (holdsDatapath_writeDatapath (cellsLegal_constructed key iv) _ _) ⟨hpend, hport, hresp, .inr rfl⟩ rfl
  refine ⟨t, ?_, hdelivered, hphase, hround, hcause, hrespt, hpendt, hportt, hsched, hd.cells, hd.r1, hd.r2⟩
  rw [xorTurns, List.length_append]
  exact (run_add hload).trans ht

/-- Settles O58: a byte's or bit's word is within the count requested, and its place in the word is a remainder. -/
theorem keystreamContents : Obligations.KeystreamContents := by
  intro key iv
  refine ⟨fun n j hj => getElem?_keystreamFrom hj (constructed key iv), fun data i d hd => ?_, fun bits i hi => ?_⟩
  · obtain ⟨hi, -⟩ := List.getElem?_eq_some_iff.mp hd
    have hcover := (wordsForBytes_bounds data.length).1
    have hword : i / 4 < wordsForBytes data.length := by omega
    have hks := getElem?_keystreamBytes (getElem?_keystreamFrom hword (constructed key iv))
    exact List.getElem?_zipWith_eq_some.mpr ⟨d, _, hd, hks, rfl⟩
  · have hcover := (wordsForBits_bounds bits).1
    have hword : i / 32 < wordsForBits bits := by omega
    rw [keystreamBits, List.getElem?_take_of_lt hi]
    exact getElem?_keystreamBytes_bits (getElem?_keystreamFrom hword (constructed key iv))

/-- Settles O60: the invariant `Session` gives the words under every interleaving, 33 controller steps the completion, and the
invariant `Discarding` the wait from FAULT. -/
theorem runXorKeystreamGivesKeystream : Obligations.RunXorKeystreamGivesKeystream := by
  refine ⟨fun s host key iv data result loadMoves moves hp hpend hport hresp howner hm h => ?_,
    fun s host key iv data n m hp hpend hport hresp howner hn => ?_,
    fun s host key iv data loadMoves moves hp hpend hport hresp howner hload hmoves hdata => ?_⟩
  · exact runXorKeystream_correct hp ⟨hpend, hport, hresp, howner⟩ hm h
  · exact runXorKeystream_completes hp ⟨hpend, hport, hresp, howner⟩ hn
  · have hend := popKeystream_of_fault (key := key) (iv := iv) hp ⟨hpend, hport, hresp, howner⟩ hload (hmoves 0) hdata
    exact ⟨hend, runXorKeystream_of_unanswered hend⟩

/-- Settles O44: the bytes by definition, the way back by putting them together. -/
theorem serializationRoundTrips : Obligations.SerializationRoundTrips := fun z => ⟨rfl, parseWord_serWord z⟩

end Sys2Proof.Machine
end

section
/-! SUPPORT. An illegal header's acceptance as a write to the state (60_exceptions.md R211, R213). -/

namespace Sys2Proof.Machine

theorem illegalHeader_of_fault {s : State} (hp : s.phase = .fault) : illegalHeader s = .next (retire 1 s) := by
  simp [illegalHeader, hp, discardFrame]

/-- R76: removing an illegal header's one word leaves the words after it on the port. -/
theorem retire_illegal {s : State} {w : Word} {ws : List Word} (h : decode (s.pend ++ s.port) = .illegal w ws) :
    retire 1 s = { s with pend := [], port := ws } := by
  simp [retire, frameWords, eq_cons_of_decode_illegal h]

/-- R211, R212: outside FAULT the illegal header in front of CORE is taken, with phase and cause written. -/
theorem acceptTurn_of_illegal_not_fault {s : State} {w : Word} {ws : List Word}
    (h : decode (s.pend ++ s.port) = .illegal w ws) (hp : s.phase ≠ .fault) :
    acceptTurn s = .next { s with phase := .fault, cause := .illegalCommand, pend := [], port := ws } := by
  rw [acceptTurn_of_illegal h, illegalHeader_of_not_fault hp]
  exact congrArg _ (retire_illegal (s := { s with phase := .fault, cause := .illegalCommand }) h)

/-- R184, R213: in FAULT the illegal header in front of CORE is discarded. -/
theorem acceptTurn_of_illegal_fault {s : State} {w : Word} {ws : List Word}
    (h : decode (s.pend ++ s.port) = .illegal w ws) (hp : s.phase = .fault) :
    acceptTurn s = .next { s with pend := [], port := ws } := by
  rw [acceptTurn_of_illegal h, illegalHeader_of_fault hp, retire_illegal h]

end Sys2Proof.Machine
end

section
/-! SUPPORT. How a move enters FAULT: only by `raiseFault`, at the acceptance of a frame of one word
(60_exceptions.md R211, R212, R214). -/

namespace Sys2Proof.Machine

/-- R214: the one command that enters FAULT is a GEN, with NOT_READY. -/
theorem exec_enters_fault {i : Instr} {s t : State} (h : exec i s = .next t) (hs : s.phase ≠ .fault)
    (ht : t.phase = .fault) : i = .gen ∧ t = raiseFault .notReady 1 s := by
  cases i with
  | load key iv =>
    obtain ⟨-, rfl⟩ | ⟨-, rfl⟩ | ⟨hp, -⟩ := execLoad_next h
    · cases ht
    · contradiction
    · contradiction
  | gen =>
    obtain ⟨-, -, d, -, -, -, -, rfl⟩ | ⟨-, rfl⟩ | ⟨-, rfl⟩ | ⟨hp, -⟩ := execGen_next h
    · contradiction
    · contradiction
    · exact ⟨rfl, rfl⟩
    · contradiction
  | status => obtain ⟨-, rfl⟩ | ⟨-, rfl⟩ := execStatus_next h <;> contradiction

/-- What is left without the first word, as `raiseFault` leaves it on the port. -/
theorem eq_cons_drop_one {ws rest : List Word} {w : Word} (h : ws = w :: rest) : ws = w :: ws.drop 1 := by
  rw [h, List.drop_one, List.tail_cons]

/-- `t` is the state after `s` raised a fault at the one-word frame in front of it. -/
def RaisedAtHead (s t : State) : Prop :=
  ∃ k w, (k = .illegalCommand ∨ k = .notReady) ∧ s.pend ++ s.port = w :: (s.pend ++ s.port).drop 1 ∧ t = raiseFault k 1 s

theorem acceptTurn_enters_fault {s t : State} (h : acceptTurn s = .next t) (hs : s.phase ≠ .fault)
    (ht : t.phase = .fault) : RaisedAtHead s t := by
  obtain ⟨i, rest, hd, he⟩ | ⟨w, rest, hd, hi⟩ | ⟨-, rfl⟩ | ⟨-, rfl⟩ := acceptTurn_next h
  · obtain ⟨rfl, rfl⟩ := exec_enters_fault he hs ht
    exact ⟨.notReady, _, .inr rfl, eq_cons_drop_one (eq_encode_append_of_decode hd), rfl⟩
  · obtain ⟨hp, -⟩ | ⟨-, rfl⟩ := illegalHeader_next hi
    · contradiction
    · exact ⟨.illegalCommand, w, .inl rfl, eq_cons_drop_one (eq_cons_of_decode_illegal hd), rfl⟩
  · contradiction
  · contradiction

/-- The controller never enters FAULT (43_controller.md R150). -/
theorem controllerStep_not_fault {s t : State} (h : controllerStep s = .next t) (hs : s.phase ≠ .fault) :
    t.phase ≠ .fault := by
  obtain ⟨-, rfl⟩ | ⟨-, d, -, -, -, -, ⟨-, rfl⟩ | ⟨-, rfl⟩⟩ := controllerStep_next h
  · exact hs
  · exact hs
  · nofun

theorem takeTurn_enters_fault {turn : Turn} {s t : State} (h : takeTurn turn s = .next t) (hs : s.phase ≠ .fault)
    (ht : t.phase = .fault) : turn = .accept ∧ RaisedAtHead s t := by
  cases turn with
  | send host w =>
    obtain ⟨-, rfl⟩ := sendTurn_next h
    contradiction
  | accept => exact ⟨rfl, acceptTurn_enters_fault h hs ht⟩
  | controller => exact absurd ht (controllerStep_not_fault h hs)
  | pop =>
    cases h
    exact absurd ((popTurn_phase s).symm.trans ht) hs
  | reset =>
    cases h
    cases ht

end Sys2Proof.Machine
end

section
/-! SUPPORT. What each move but a reset does in FAULT: the controller and the datapath stay, and nothing but an accepted
STATUS is answered (60_exceptions.md R213, R218). -/

namespace Sys2Proof.Machine

/-- A STATUS's response: the status word at the FIFO's end. -/
def EmitsStatus (s t : State) : Prop := t.delivered = s.delivered ∧ t.resp = s.resp ++ [statusWord s]

theorem exec_next_of_fault {i : Instr} {s t : State} (hp : s.phase = .fault) (h : exec i s = .next t) :
    SameCore s t ∧ (SameResponses s t ∨ (i = .status ∧ EmitsStatus s t)) := by
  by_cases hi : i = .status
  · subst hi
    obtain ⟨-, rfl⟩ | ⟨-, rfl⟩ := execStatus_next h
    · exact ⟨sameCore_refl t, .inl (.refl t)⟩
    · exact ⟨sameCore_refl s, .inr ⟨rfl, rfl, rfl⟩⟩
  · cases (exec_of_fault hi hp).symm.trans h
    exact ⟨sameCore_refl s, .inl (.refl s)⟩

theorem acceptTurn_next_of_fault {s t : State} (hp : s.phase = .fault) (h : acceptTurn s = .next t) :
    SameCore s t ∧
      (SameResponses s t ∨ ((∃ rest, decode (s.pend ++ s.port) = .frame .status rest) ∧ EmitsStatus s t)) := by
  obtain ⟨i, rest, hd, he⟩ | ⟨w, rest, -, hi⟩ | ⟨-, rfl⟩ | ⟨-, rfl⟩ := acceptTurn_next h
  · obtain ⟨hcore, hresp | ⟨rfl, hstatus⟩⟩ := exec_next_of_fault hp he
    · exact ⟨hcore, .inl hresp⟩
    · exact ⟨hcore, .inr ⟨⟨rest, hd⟩, hstatus⟩⟩
  · cases (illegalHeader_of_fault hp).symm.trans hi
    exact ⟨sameCore_refl s, .inl (.refl s)⟩
  · exact ⟨sameCore_refl s, .inl (.refl s)⟩
  · exact ⟨sameCore_refl t, .inl (.refl t)⟩

theorem takeTurn_next_of_fault {turn : Turn} {s t : State} (hp : s.phase = .fault) (hreset : turn ≠ .reset)
    (h : takeTurn turn s = .next t) :
    SameCore s t ∧ (t.delivered ++ t.resp = s.delivered ++ s.resp ∨
      (turn = .accept ∧ (∃ rest, decode (s.pend ++ s.port) = .frame .status rest) ∧ EmitsStatus s t)) := by
  cases turn with
  | send host w =>
    obtain ⟨-, rfl⟩ := sendTurn_next h
    exact ⟨sameCore_refl s, .inl rfl⟩
  | accept =>
    obtain ⟨hcore, ⟨hresp, hdelivered⟩ | hstatus⟩ := acceptTurn_next_of_fault hp h
    · exact ⟨hcore, .inl (by rw [hresp, hdelivered])⟩
    · exact ⟨hcore, .inr ⟨rfl, hstatus⟩⟩
  | controller =>
    cases (controllerStep_of_not_init (by simp [hp])).symm.trans h
    exact ⟨sameCore_refl s, .inl rfl⟩
  | pop =>
    cases h
    exact ⟨sameCore_popTurn s, .inl (popTurn_words s)⟩
  | reset => contradiction

end Sys2Proof.Machine
end

section
/-! SUPPORT. Every agent's move completes from a state with the invariant: in INIT and READY the registers a round reads are
written and legal, and in INIT the round count has a round (60_exceptions.md R215; 10_state.md R27, R35). -/

namespace Sys2Proof.Machine

/-- R35: where a round can run, its registers hold values with no 0 cell. -/
theorem exists_holdsDatapath {s : State} (h : RegistersOk s) (hp : s.phase = .init ∨ s.phase = .ready) :
    ∃ d, HoldsDatapath d s := by
  obtain ⟨⟨hr1, hr2⟩, -, -, hwritten, -, hlegal⟩ := h
  have hcells := hwritten hp
  obtain ⟨cells, hc⟩ := Option.isSome_iff_exists.mp hcells
  obtain ⟨a, h1⟩ := Option.isSome_iff_exists.mp (hr1 ▸ hcells)
  obtain ⟨b, h2⟩ := Option.isSome_iff_exists.mp (hr2 ▸ hr1 ▸ hcells)
  exact ⟨⟨cells, a, b⟩, hc, h1, h2, hlegal cells hc⟩

theorem execLoad_completes (key iv : Bytes16) (s : State) : ∃ t, execLoad key iv s = .next t := by
  cases hp : s.phase with
  | uninit => exact ⟨_, execLoad_of_uninit_or_ready key iv (.inl hp)⟩
  | init => exact ⟨_, execLoad_of_init key iv hp⟩
  | ready => exact ⟨_, execLoad_of_uninit_or_ready key iv (.inr hp)⟩
  | fault => exact ⟨_, execLoad_of_fault key iv hp⟩

theorem execGen_completes {s : State} (h : RegistersOk s) : ∃ t, execGen s = .next t := by
  cases hp : s.phase with
  | uninit => exact ⟨_, execGen_of_uninit hp⟩
  | init => exact ⟨_, execGen_of_init hp⟩
  | ready =>
    by_cases hr : s.resp.length = Config.respDepth
    · exact ⟨_, execGen_of_ready_full hp hr⟩
    · obtain ⟨d, hd⟩ := exists_holdsDatapath h (.inr hp)
      exact ⟨_, execGen_of_holds hp hr hd⟩
  | fault => exact ⟨_, execGen_of_fault hp⟩

theorem execStatus_completes (s : State) : ∃ t, execStatus s = .next t := by
  by_cases hr : s.resp.length = Config.respDepth
  · exact ⟨_, execStatus_of_full hr⟩
  · exact ⟨_, execStatus_of_room hr⟩

theorem exec_completes (i : Instr) {s : State} (h : RegistersOk s) : ∃ t, exec i s = .next t := by
  cases i with
  | load key iv => exact execLoad_completes key iv s
  | gen => exact execGen_completes h
  | status => exact execStatus_completes s

theorem illegalHeader_completes (s : State) : ∃ t, illegalHeader s = .next t := by
  by_cases hp : s.phase = .fault
  · exact ⟨_, illegalHeader_of_fault hp⟩
  · exact ⟨_, illegalHeader_of_not_fault hp⟩

theorem acceptTurn_completes {s : State} (h : RegistersOk s) : ∃ t, acceptTurn s = .next t := by
  cases hd : decode (s.pend ++ s.port) with
  | frame i rest => simpa [acceptTurn_of_frame hd] using exec_completes i h
  | illegal w rest => simpa [acceptTurn_of_illegal hd] using illegalHeader_completes s
  | incomplete => exact ⟨_, acceptTurn_of_incomplete hd⟩
  | empty => exact ⟨s, acceptTurn_of_queued_nil (eq_nil_of_decode_empty hd)⟩

/-- R155, R27: in INIT the count is at most 32, so it has a round. -/
theorem controllerStep_completes {s : State} (hctrl : ControlOk s) (hreg : RegistersOk s) :
    ∃ t, controllerStep s = .next t := by
  by_cases hp : s.phase = .init
  · obtain ⟨d, hd⟩ := exists_holdsDatapath hreg (.inl hp)
    have hround : s.round.toNat ≤ 32 := ((controlOk_of_init hp).mp hctrl).1
    obtain hk | hk := hround.lt_or_eq
    · exact ⟨_, controllerStep_of_init_round hp hk hd⟩
    · exact ⟨_, controllerStep_of_warmup_round hp hk hd⟩
  · exact ⟨s, controllerStep_of_not_init hp⟩

theorem takeTurn_completes {turn : Turn} {s : State} (h : StateInv s)
    (hhost : ∀ host w, turn = .send host w → s.owner = none ∨ s.owner = some host) : ∃ t, takeTurn turn s = .next t := by
  obtain ⟨hctrl, hreg, -⟩ := h
  cases turn with
  | send host w => exact ⟨_, sendTurn_of_owner w (hhost host w rfl)⟩
  | accept => exact acceptTurn_completes hreg
  | controller => exact controllerStep_completes hctrl hreg
  | pop => exact ⟨_, rfl⟩
  | reset => exact ⟨_, rfl⟩

end Sys2Proof.Machine
end

section
/-! The settled statements of 60_exceptions.md: how FAULT is entered, that it stays, and that every step completes. -/

namespace Sys2Proof.Machine

/-- Settles O36: the step is an acceptance step at the illegal header, by its two equations. -/
theorem illegalHeaderFaultsOrIsDiscarded : Obligations.IllegalHeaderFaultsOrIsDiscarded := by
  intro s w ws rest hs hd
  rw [step_of_cons hs]
  exact ⟨acceptTurn_of_illegal_not_fault (s := { s with sched := rest }) hd,
    acceptTurn_of_illegal_fault (s := { s with sched := rest }) hd⟩

/-- Settles O48: the step is `raiseFault` at the one word in front, read field by field. -/
theorem faultEntryIsPrecise : Obligations.FaultEntryIsPrecise := by
  intro s t h hs ht
  rw [step_eq] at h
  obtain ⟨haccept, k, w, hk, hwords, rfl⟩ := takeTurn_enters_fault h hs ht
  exact ⟨haccept, hk, rfl, rfl, rfl, rfl, rfl, rfl, rfl, rfl, ⟨w, hwords⟩, controllerStep_of_not_init nofun⟩

/-- Settles O49: the move is taken off the schedule, which none of the compared fields reads. -/
theorem faultIsSticky : Obligations.FaultIsSticky := by
  intro s t hp h hreset
  rw [step_eq] at h
  have hmove := takeTurn_next_of_fault (s := { s with sched := s.sched.tail }) hp hreset h
  exact hmove

/-- Settles O56: the invariant does not read the schedule, and a planned word is from the port's one host. -/
theorem everyStepCompletes : Obligations.EveryStepCompletes := by
  intro s h hhost
  rw [step_eq]
  exact takeTurn_completes (s := { s with sched := s.sched.tail }) h hhost

end Sys2Proof.Machine
end

section
/-! SUPPORT. A word from a stream that does not own the port, and a run that has ended: the moves that are left are those their
agents cannot make (70_reset_and_hazards.md R245, R251; log entries 3, 12). -/

namespace Sys2Proof.Machine

/-- R221, R245: the port's owner keeps every other host stream off it. -/
theorem sendTurn_of_other_owner {owner host : Nat} {s : State} (w : Word) (ho : s.owner = some owner) (hne : owner ≠ host) :
    sendTurn host w s = .refused .interleavedHosts :=
  if_neg (by simp [ho, hne])

/-- Outside INIT CORE's own move is no input either, so the whole schedule's being free of input covers the next move. -/
theorem nextTurn_noInput {s : State} (h : noInput s.sched = true) (hp : s.phase ≠ .init) :
    noInput [(nextTurn s).1] = true := by
  cases hs : s.sched with
  | nil => simp [nextTurn, hs, ownTurn_of_not_init hp, noInput]
  | cons t rest =>
    rw [nextTurn_of_cons hs]
    exact ((noInput_cons t rest).mp (hs ▸ h)).1

/-- With no word to accept, no round to run and no response to pop, a move that is no input passes (R225; log entry 12). -/
theorem takeTurn_of_noInput {turn : Turn} {s : State} (h : noInput [turn] = true) (hwords : Queued [] s)
    (hp : s.phase ≠ .init) (hresp : s.resp = []) : takeTurn turn s = .next s := by
  cases turn with
  | send host w => contradiction
  | accept => exact acceptTurn_of_queued_nil hwords
  | controller => exact controllerStep_of_not_init hp
  | pop => exact congrArg _ (popTurn_of_nil hresp)
  | reset => contradiction

/-- R251: a run that has ended makes no further move that changes more than the schedule. -/
theorem step_of_ended {s : State} (h : Ended s) : step s = .next { s with sched := s.sched.tail } := by
  obtain ⟨⟨hinput, hport, hpend⟩, hp, hresp⟩ := h
  have hwords : Queued [] { s with sched := s.sched.tail } := by simp [Queued, frameWords, hport, hpend]
  rw [step_eq]
  exact takeTurn_of_noInput (nextTurn_noInput hinput hp) hwords hp hresp

/-- R251: outside INIT the phase alone says which end it is. -/
theorem goodEnd_or_badEnd_of_ended {s : State} (h : Ended s) : GoodEnd s ∨ BadEnd s := by
  obtain ⟨-, hp, -⟩ := id h
  cases hphase : s.phase with
  | uninit => exact .inl ⟨h, .inl hphase⟩
  | init => contradiction
  | ready => exact .inl ⟨h, .inr hphase⟩
  | fault => exact .inr ⟨h, hphase⟩

theorem not_goodEnd_and_badEnd (s : State) : ¬ (GoodEnd s ∧ BadEnd s) := by
  rintro ⟨⟨-, hgood⟩, -, hbad⟩
  simp [hbad] at hgood

end Sys2Proof.Machine
end

section
/-! The settled statements of 70_reset_and_hazards.md: the reset step, the second host stream and the end of a run. -/

namespace Sys2Proof.Machine

/-- Settles O57: the end is read off the phase, and the next move is one that its agent cannot make. -/
theorem endedRunStaysEnded : Obligations.EndedRunStaysEnded :=
  fun s _ h => ⟨goodEnd_or_badEnd_of_ended h, not_goodEnd_and_badEnd s, step_of_ended h⟩

/-- Settles O2: the planned reset is the step's move, and `resetTurn` does not read the rest of the state. -/
theorem resetStepRestoresResetState : Obligations.ResetStepRestoresResetState :=
  fun _ _ hs => step_of_cons hs

/-- Settles O50: the planned word is the step's move, and its host does not own the port. -/
theorem secondHostStreamRefused : Obligations.SecondHostStreamRefused := by
  intro s owner host w rest hs ho hne
  rw [step_of_cons hs]
  exact sendTurn_of_other_owner (s := { s with sched := rest }) w ho hne

end Sys2Proof.Machine
end
